-- ==== Sys2Proof/Word.lean ====
section
/-! DEFINITION. The words of the machine: 00_scope R5, R6, R7. All values are unsigned. -/

namespace Sys2Proof

/-- The native operand width, 4 bits (00_scope R12). -/
abbrev Nibble := BitVec 4

/-- A program-memory cell and the selector, 8 bits. -/
abbrev Byte := BitVec 8

/-- A program-memory address: 12 bits, arithmetic modulo 4096 (10_state R26, R28). -/
abbrev Addr := BitVec 12

/-- One bit: the carry flag and the TEST input (10_state R22, R44). -/
abbrev Bit := BitVec 1

end Sys2Proof
end

