-- ==== Sys2Proof/Config.lean ====
section
/-! DEFINITION. What is fixed for a run (00_scope R5, 10_state R45), and the one free value of the spec: the TEST input. -/

namespace Sys2Proof

/-- The parameter `CARRY_OPS` (00_scope R5, D17; log entry 3): whether CLC, CMC and STC act on the carry or only advance `pc`. -/
inductive CarryOps where
  | historical
  | nop
deriving DecidableEq, Repr

/-- The parameters of 00_scope R5 that a run fixes.
They stand in `State.config`, which no step changes, so that a statement over all states is one over all parameters. -/
structure Config where
  /-- `PM_SIZE`: how many bytes of program memory exist, 1 to 4096 (D3). -/
  pmSize   : Nat
  /-- `SRC_SHIFT`: the right shift applied by SRC, any natural number (D6, OPEN). -/
  srcShift : Nat
  /-- `CARRY_OPS` (D17). -/
  carryOps : CarryOps
deriving DecidableEq, Repr

/-- The values 00_scope R5 names: canonical `PM_SIZE` 256, reference `SRC_SHIFT` 0 (DESIGN CHOICE, log entry 2: the spec
leaves it OPEN), decided `CARRY_OPS` historical. -/
def Config.reference : Config := { pmSize := 256, srcShift := 0, carryOps := .historical }

/-- The TEST input at its k-th sampling (10_state R44: "a free draw the model does not constrain").
It has no body, so nothing can be proved of a value of it. Log entry 4. -/
opaque Config.testInput : Nat → Bit

end Sys2Proof
end

