-- ==== Sys2Proof/Machine/State.lean ====
section
/-! DEFINITION. The state of the CORE and its two memory units (10_state R20), the faults and the refusals. -/

namespace Sys2Proof.Machine

/-- The contents of one address space: its cells that do not hold 0, as (address, value) pairs with strictly rising
addresses (the canonical form `Memory.wf`). A cell that is not listed holds 0, its construction value (R20, R260).
`Memory 8` is a list of `Host.Cell`. Log entry 6. -/
abbrev Memory (w : Nat) := List (Nat × BitVec w)

/-- The state tuple of 10_state R20, field for field, and two fields of the model's own (`config`, `testDraws`). -/
structure State where
  /-- Program counter (R26). -/
  pc        : Addr
  /-- Accumulator (R21). -/
  acc       : Nibble
  /-- Carry flag (R22). -/
  cy        : Bit
  /-- Index registers `x[0]` to `x[15]` (R23). -/
  x         : Vector Nibble 16
  /-- Command-control latch (R29). -/
  cc        : Nibble
  /-- Call-stack slots, `stack[0]` the oldest live entry (R33). -/
  stack     : Vector Addr 3
  /-- Stack pointer: the number of live entries, 0 to 3 (R34). -/
  sp        : Fin 4
  /-- Selector, the data-memory address latch (R31). -/
  sel       : Byte
  /-- Program memory (R39), addresses 0 to `config.pmSize - 1`. -/
  pm        : Memory 8
  /-- Program-memory port register (R40). -/
  romport   : Nibble
  /-- Main data memory (R41), indices 0 to 255. -/
  dm        : Memory 4
  /-- Status memory (R42), indices 0 to 15. -/
  st        : Memory 4
  /-- Data-memory output port (R43). -/
  dmport    : Nibble
  /-- The model's own: the parameters of 00_scope R5, which no step changes (R45). Log entry 1. -/
  config    : Config
  /-- The model's own: how often TEST has been sampled; the next draw is `Config.testInput testDraws` (R44). Log entry 4. -/
  testDraws : Nat
deriving DecidableEq, Repr

/-- What stops the machine. -/
inductive Fault where
  /-- Raised by `memWrite` and `statWrite` for an index outside the array (20_memory R66, R67; 60_exceptions R243).
  Safe: the spec names this fault, and no instruction reaches it from any state. Log entry 11. -/
  | decodeBug
deriving DecidableEq, Repr

/-- What the model does not admit. -/
inductive Refusal where
  /-- Raised by an arm of `exec` whose instruction has no meaning yet; no arm does. Safe: the machine stops where the
  hardware goes on. -/
  | notModelled (mnemonic : String)
  /-- Raised by `hostWrite` for a value outside the element's range (20_memory R83). Safe: the spec says the model refuses it. -/
  | hostValueOutOfRange
  /-- Raised by `hostWrite` for a program-memory address that holds no cell (20_memory R61). Safe: nothing is written.
  Log entry 8. -/
  | hostNoSuchCell
deriving DecidableEq, Repr

/-- The construction state (70_reset R260), with the parameter values of `Config.reference`. -/
def State.reset : State where
  pc        := 0
  acc       := 0
  cy        := 0
  x         := Vector.replicate 16 0
  cc        := 0
  stack     := Vector.replicate 3 0
  sp        := 0
  sel       := 0
  pm        := []
  romport   := 0
  dm        := []
  st        := []
  dmport    := 0
  config    := Config.reference
  testDraws := 0

end Sys2Proof.Machine
end

