-- ==== Sys2Proof/Machine/Ops.lean ====
section
/-! DEFINITION. The named operations over registers, memories, ports and the call stack.
The spec has no trap mechanism (60_exceptions R240 to R245), so there is no operation that takes an exception or returns
from one. -/

namespace Sys2Proof.Machine

/-- What one instruction answers. -/
abbrev Result := Host.Outcome State Fault Refusal

/-! ### One update per field -/

def State.setPc (v : Addr) (s : State) : State := { s with pc := v }
def State.setAcc (v : Nibble) (s : State) : State := { s with acc := v }
def State.setCy (v : Bit) (s : State) : State := { s with cy := v }
def State.setX (v : Vector Nibble 16) (s : State) : State := { s with x := v }
def State.setCc (v : Nibble) (s : State) : State := { s with cc := v }
def State.setStack (v : Vector Addr 3) (s : State) : State := { s with stack := v }
def State.setSp (v : Fin 4) (s : State) : State := { s with sp := v }
def State.setSel (v : Byte) (s : State) : State := { s with sel := v }
def State.setPm (v : Memory 8) (s : State) : State := { s with pm := v }
def State.setRomport (v : Nibble) (s : State) : State := { s with romport := v }
def State.setDm (v : Memory 4) (s : State) : State := { s with dm := v }
def State.setSt (v : Memory 4) (s : State) : State := { s with st := v }
def State.setDmport (v : Nibble) (s : State) : State := { s with dmport := v }
def State.setConfig (v : Config) (s : State) : State := { s with config := v }
def State.setTestDraws (v : Nat) (s : State) : State := { s with testDraws := v }

/-! ### Memories as lists of cells -/

/-- The value of a cell: 0 where it is not listed. -/
def Memory.read {w : Nat} : Memory w → Nat → BitVec w
  | [], _ => 0
  | (b, v) :: rest, a => if a = b then v else Memory.read rest a

/-- Stores `v` in cell `a`, keeping the canonical form: storing 0 removes the entry. -/
def Memory.write {w : Nat} : Memory w → Nat → BitVec w → Memory w
  | [], a, v => if v = 0 then [] else [(a, v)]
  | (b, u) :: rest, a, v =>
    if a < b then (if v = 0 then (b, u) :: rest else (a, v) :: (b, u) :: rest)
    else if a = b then (if v = 0 then rest else (a, v) :: rest)
    else (b, u) :: Memory.write rest a v

/-- Canonical, with every address in `lo .. size - 1`. -/
def Memory.wfFrom {w : Nat} (size : Nat) : Nat → Memory w → Bool
  | _, [] => true
  | lo, (a, v) :: rest => lo ≤ a && a < size && v != 0 && Memory.wfFrom size (a + 1) rest

/-- The canonical form of a space of `size` cells: addresses strictly rising and below `size`, no entry 0. -/
def Memory.wf {w : Nat} (size : Nat) (m : Memory w) : Bool := Memory.wfFrom size 0 m

/-! ### Index registers (10_state R23, R24) -/

/-- `x[r]`. -/
def reg (r : Nibble) (s : State) : Nibble := s.x[r.toNat]'r.isLt

/-- `x[r] <- v`. -/
def setReg (r v : Nibble) (s : State) : State := s.setX (s.x.set r.toNat v r.isLt)

/-- The even slot of pair `p`, register `2p = {p, 0}` (R24, 41_registers_addressing R160). -/
def evenSlot (p : BitVec 3) : Nibble := p ++ 0#1

/-! ### Program counter (10_state R27, R28; 30_encoding R101) -/

/-- `pc <- (pc + n) mod 4096`. -/
def advance (n : Nat) (s : State) : State := s.setPc (s.pc + BitVec.ofNat 12 n)

/-! ### Program memory (20_memory R62) -/

/-- `PmFetch(a)`: the stored byte, or 0x00 where `a` holds no cell. -/
def pmFetch (a : Addr) (s : State) : Byte :=
  if a.toNat < s.config.pmSize then s.pm.read a.toNat else 0

/-! ### Data memory (20_memory R64 to R67) -/

/-- The size of the main array (10_state R41). -/
def dmSize : Nat := 256

/-- The size of the status array (10_state R42). -/
def stSize : Nat := 16

/-- `MemRead(i, 1)`: 0 outside the array (R66). -/
def memRead (i : Nat) (s : State) : Nibble := if i < dmSize then s.dm.read i else 0

/-- `MemWrite(i, 1, v)`: raises `Fault(DecodeBug)` outside the array (R66). -/
def memWrite (i : Nat) (v : Nibble) (s : State) : Result :=
  if i < dmSize then .next (s.setDm (s.dm.write i v)) else .fault .decodeBug

/-- `StatRead(j)` (R67). -/
def statRead (j : Nat) (s : State) : Nibble := if j < stSize then s.st.read j else 0

/-- `StatWrite(j, v)` (R67). -/
def statWrite (j : Nat) (v : Nibble) (s : State) : Result :=
  if j < stSize then .next (s.setSt (s.st.write j v)) else .fault .decodeBug

/-- The status bank `sel[5:4]` (R65). -/
def statBank (s : State) : Nat := (s.sel.extractLsb' 4 2).toNat

/-- The index of status character `n` of the selected bank, `bank * 4 + n` (R65). -/
def statIndex (n : Nat) (s : State) : Nat := statBank s * 4 + n

/-- What a write answers, followed by the end of the instruction; a fault ends the step with nothing written (60_exceptions R243). -/
def thenDo (r : Result) (f : State → State) : Result :=
  match r with
  | .next s => .next (f s)
  | .fault e => .fault e
  | .refused e => .refused e

/-! ### Call stack (10_state R36, R37) -/

/-- The slots after `Push(v)`: at `sp = 3` the oldest entry is lost and the others move down (R36). -/
def pushSlots (v : Addr) (stack : Vector Addr 3) (sp : Fin 4) : Vector Addr 3 :=
  if h : sp.val < 3 then stack.set sp.val v h else #v[stack[1], stack[2], v]

/-- The pointer after a push, which stays 3 when full (R36). -/
def pushPointer (sp : Fin 4) : Fin 4 := if h : sp.val < 3 then ⟨sp.val + 1, Nat.succ_lt_succ h⟩ else sp

/-- `Push(v)` (R36). -/
def push (v : Addr) (s : State) : State := (s.setStack (pushSlots v s.stack s.sp)).setSp (pushPointer s.sp)

/-- The value `Pop()` returns: `stack[sp - 1]`, or `stack[0]` when empty (R37). -/
def popValue (s : State) : Addr := if s.sp.val = 0 then s.stack[0] else s.stack[s.sp.val - 1]

/-- The slots after `Pop()`: slot `sp - 1` is cleared; unchanged when empty (R37). -/
def popSlots (stack : Vector Addr 3) (sp : Fin 4) : Vector Addr 3 :=
  if sp.val = 0 then stack else stack.set (sp.val - 1) 0

/-- The pointer after a pop, which stays 0 when empty (R37). -/
def popPointer (sp : Fin 4) : Fin 4 := if sp.val = 0 then sp else ⟨sp.val - 1, by omega⟩

/-- What `Pop()` leaves (R37). -/
def popRest (s : State) : State := (s.setStack (popSlots s.stack s.sp)).setSp (popPointer s.sp)

/-! ### The TEST input (10_state R44) -/

/-- The value TEST has when it is sampled next: a free value (log entry 4). -/
def testValue (s : State) : Bit := Config.testInput s.testDraws

/-- After an instruction that samples TEST (`used`) the next sampling is a new draw. -/
def sampleTest (used : Bool) (s : State) : State := s.setTestDraws (if used then s.testDraws + 1 else s.testDraws)

end Sys2Proof.Machine
end

