-- ==== Sys2Proof/Machine/Flags.lean ====
section
/-! DEFINITION. The ALU's results and the carry flag (40_alu R120): each computation on integers, then masked. -/

namespace Sys2Proof.Machine

/-- "mask the result to the low 4 bits" (R120): `t mod 16`. -/
def mask4 (t : Int) : Nibble := BitVec.ofInt 4 t

/-- A condition as a carry bit. -/
def bitOf (b : Bool) : Bit := BitVec.ofBool b

/-- The common carry rule (R120): 1 iff `t < 0` or `t > 15`. -/
def commonCarry (t : Int) : Bit := bitOf (t < 0 || t > 15)

/-- The common end of an arithmetic instruction (R120): `acc` and `cy` from the unmasked result `t`. -/
def aluWrite (t : Int) (s : State) : State := (s.setAcc (mask4 t)).setCy (commonCarry t)

/-- The unmasked sum of ADD and ADM: `acc + m + cy` (R121, R123). -/
def addSum (m : Nibble) (s : State) : Int := s.acc.toNat + m.toNat + s.cy.toNat

/-- The unmasked difference of SUB and SBM: `acc - m - (1 - cy)` (R122, R124). -/
def subDiff (m : Nibble) (s : State) : Int := s.acc.toNat - m.toNat - (1 - s.cy.toNat)

/-- DAC's carry, "set on no borrow" (R126). -/
def dacCarry (old : Nibble) : Bit := bitOf (old != 0)

/-- RAL's result `{old[2:0], cy}` (R127). -/
def ralAcc (old : Nibble) (cy : Bit) : Nibble := old.extractLsb' 0 3 ++ cy

/-- RAL's carry, the old bit 3 (R127). -/
def ralCarry (old : Nibble) : Bit := old.extractLsb' 3 1

/-- RAR's result `{cy, old[3:1]}` (R128). -/
def rarAcc (old : Nibble) (cy : Bit) : Nibble := cy ++ old.extractLsb' 1 3

/-- RAR's carry, the old bit 0 (R128). -/
def rarCarry (old : Nibble) : Bit := old.extractLsb' 0 1

/-- Does DAA adjust? "if carry or acc > 9" (R133). -/
def daaAdjusts (s : State) : Bool := s.cy == 1 || 9 < s.acc.toNat

/-- DAA's accumulator (R133). -/
def daaAcc (s : State) : Nibble := if daaAdjusts s then mask4 (s.acc.toNat + 6) else s.acc

/-- DAA's carry: recomputed by an adjustment, which may clear a carry that was 1 (R133, D21). -/
def daaCarry (s : State) : Bit := if daaAdjusts s then commonCarry (s.acc.toNat + 6) else s.cy

/-- `KBP_TABLE` (R134). -/
def kbpTable (v : Nibble) : Nibble :=
  match v.toNat with
  | 0 => 0
  | 1 => 1
  | 2 => 2
  | 4 => 3
  | 8 => 4
  | _ => 15

/-- The carry after a carry instruction under `CARRY_OPS` (R135 to R137): `v`, or the old one. -/
def carryOpValue (v : Bit) (s : State) : Bit :=
  match s.config.carryOps with
  | .historical => v
  | .nop => s.cy

/-- The effect of a carry instruction. -/
def carryOp (v : Bit) (s : State) : State := s.setCy (carryOpValue v s)

end Sys2Proof.Machine
end

