-- ==== Sys2Proof/Machine/Operands.lean ====
section
/-! DEFINITION. Operand forms: the short target, the JCN condition, the selector's fields, the low nibble of a byte. -/

namespace Sys2Proof.Machine

/-- The short target of JCN and ISZ (30_encoding R99, 42_control_transfer R191): `{((pc + 2) mod 4096)[11:8], a8}`. -/
def shortTarget (a8 : Byte) (s : State) : Addr := (s.pc + 2).extractLsb' 8 4 ++ a8

/-- The low nibble of a byte, which FIM and FIN store (41_registers_addressing R161, R163; D5). -/
def lowNibble (b : Byte) : Nibble := b.extractLsb' 0 4

/-- The byte SRC puts in the selector (R162): `zext_8(v) >> SRC_SHIFT`. -/
def srcSelector (v : Nibble) (s : State) : Byte := v.setWidth 8 >>> s.config.srcShift

/-- The selector with `sel[7:4]` replaced (JIN, R164). -/
def withBank (v : Nibble) (sel : Byte) : Byte := v ++ sel.extractLsb' 0 4

/-- FIN's address `zext_12(x[0])` (R163). -/
def finAddress (s : State) : Addr := (reg 0 s).setWidth 12

/-- JCN's invert bit `c[3]` (R195). -/
def jcnInvert (c : Nibble) : Bool := c.getLsbD 3

/-- Does JCN sample TEST? Where its condition has the invert bit clear and the signal-test bit `c[0]` set (R195, R44). -/
def jcnSamplesTest (c : Nibble) : Bool := !jcnInvert c && c.getLsbD 0

/-- Is the jump of JCN taken, TEST having the value `test` (R195)? -/
def jcnTaken (c : Nibble) (test : Bit) (s : State) : Bool :=
  if jcnInvert c then false
  else (c.getLsbD 2 && s.acc == 0) || (c.getLsbD 1 && s.cy == 1) || (c.getLsbD 0 && test == 0)

end Sys2Proof.Machine
end

