-- ==== Sys2Proof/Machine/Alu.lean ====
section
/-! DEFINITION. The accumulator instructions (40_alu R120 to R137). Each ends with `pc <- (pc + 1) mod 4096`. -/

namespace Sys2Proof.Machine

/-- ADD r (R121). -/
def execAdd (r : Nibble) (s : State) : Result := .next (advance 1 (aluWrite (addSum (reg r s) s) s))

/-- SUB r (R122). -/
def execSub (r : Nibble) (s : State) : Result := .next (advance 1 (aluWrite (subDiff (reg r s) s) s))

/-- ADM (R123). -/
def execAdm (s : State) : Result := .next (advance 1 (aluWrite (addSum (memRead s.sel.toNat s) s) s))

/-- SBM (R124). -/
def execSbm (s : State) : Result := .next (advance 1 (aluWrite (subDiff (memRead s.sel.toNat s) s) s))

/-- IAC (R125). -/
def execIac (s : State) : Result := .next (advance 1 (aluWrite (s.acc.toNat + 1) s))

/-- DAC (R126): the carry convention is inverted. -/
def execDac (s : State) : Result :=
  .next (advance 1 ((s.setAcc (mask4 (s.acc.toNat - 1))).setCy (dacCarry s.acc)))

/-- RAL (R127). -/
def execRal (s : State) : Result := .next (advance 1 ((s.setAcc (ralAcc s.acc s.cy)).setCy (ralCarry s.acc)))

/-- RAR (R128). -/
def execRar (s : State) : Result := .next (advance 1 ((s.setAcc (rarAcc s.acc s.cy)).setCy (rarCarry s.acc)))

/-- CMA (R129): carry unaffected. -/
def execCma (s : State) : Result := .next (advance 1 (s.setAcc (mask4 (15 - s.acc.toNat))))

/-- CLB (R130). -/
def execClb (s : State) : Result := .next (advance 1 ((s.setAcc 0).setCy 0))

/-- TCC (R131). -/
def execTcc (s : State) : Result := .next (advance 1 ((s.setAcc (if s.cy = 1 then 1 else 0)).setCy 0))

/-- TCS (R132). -/
def execTcs (s : State) : Result := .next (advance 1 ((s.setAcc (if s.cy = 1 then 10 else 9)).setCy 0))

/-- DAA (R133): an adjustment recomputes the carry, and may clear one that was 1 (D21). -/
def execDaa (s : State) : Result :=
  .next (advance 1 ((s.setAcc (daaAcc s)).setCy (daaCarry s)))

/-- KBP (R134): carry unchanged (D20). -/
def execKbp (s : State) : Result := .next (advance 1 (s.setAcc (kbpTable s.acc)))

/-- CLC (R135). -/
def execClc (s : State) : Result := .next (advance 1 (carryOp 0 s))

/-- CMC (R136). -/
def execCmc (s : State) : Result := .next (advance 1 (carryOp (~~~s.cy) s))

/-- STC (R137). -/
def execStc (s : State) : Result := .next (advance 1 (carryOp 1 s))

end Sys2Proof.Machine
end

