-- ==== Sys2Proof/Machine/Control.lean ====
section
/-! DEFINITION. The control-transfer instructions and the no-operations (42_control_transfer R190 to R197). -/

namespace Sys2Proof.Machine

/-- NOP (R196). -/
def execNop (_f : Nibble) (s : State) : Result := .next (advance 1 s)

/-- JCN c, a8 (R195): TEST is a free draw, made where the condition tests it (R44). -/
def execJcn (c : Nibble) (a : Byte) (s : State) : Result :=
  .next ((sampleTest (jcnSamplesTest c) s).setPc
    (if jcnTaken c (testValue s) s then shortTarget a s else s.pc + 2))

/-- JUN a12 (R192): no stack effect. -/
def execJun (a : Addr) (s : State) : Result := .next (s.setPc a)

/-- JMS a12 (R193): pushes the address after the two-word JMS (D13). -/
def execJms (a : Addr) (s : State) : Result := .next ((push (s.pc + 2) s).setPc a)

/-- BBL d (R194): the return address is used as it is, with no further advance (D14). -/
def execBbl (d : Nibble) (s : State) : Result := .next (((popRest s).setPc (popValue s)).setAcc d)

/-- The unassigned first bytes 0xFE and 0xFF (R197): no operation, one word. -/
def execUnassigned (_f : Bit) (s : State) : Result := .next (advance 1 s)

end Sys2Proof.Machine
end

