-- ==== Sys2Proof/Machine/MemoryIo.lean ====
section
/-! DEFINITION. The data-memory, port and command-line instructions (43_memory_io R210 to R225).
Each leaves `cy` unchanged and ends with `pc <- (pc + 1) mod 4096`. -/

namespace Sys2Proof.Machine

/-- Writes the accumulator to status character `n` of the selected bank (R213 to R216). -/
def statusWrite (n : Nat) (s : State) : Result := thenDo (statWrite (statIndex n s) s.acc s) (advance 1)

/-- Reads status character `n` of the selected bank into the accumulator (R217 to R220). -/
def statusRead (n : Nat) (s : State) : Result := .next (advance 1 (s.setAcc (statRead (statIndex n s) s)))

/-- WRM (R211). -/
def execWrm (s : State) : Result := thenDo (memWrite s.sel.toNat s.acc s) (advance 1)

/-- RDM (R212). -/
def execRdm (s : State) : Result := .next (advance 1 (s.setAcc (memRead s.sel.toNat s)))

/-- WR0 (R213). -/
def execWr0 (s : State) : Result := statusWrite 0 s

/-- WR1 (R214). -/
def execWr1 (s : State) : Result := statusWrite 1 s

/-- WR2 (R215). -/
def execWr2 (s : State) : Result := statusWrite 2 s

/-- WR3 (R216). -/
def execWr3 (s : State) : Result := statusWrite 3 s

/-- RD0 (R217). -/
def execRd0 (s : State) : Result := statusRead 0 s

/-- RD1 (R218). -/
def execRd1 (s : State) : Result := statusRead 1 s

/-- RD2 (R219). -/
def execRd2 (s : State) : Result := statusRead 2 s

/-- RD3 (R220). -/
def execRd3 (s : State) : Result := statusRead 3 s

/-- WMP (R221). -/
def execWmp (s : State) : Result := .next (advance 1 (s.setDmport s.acc))

/-- WRR (R222). -/
def execWrr (s : State) : Result := .next (advance 1 (s.setRomport s.acc))

/-- RDR (R223): the value of the port register (decision D31). Log entry 9. -/
def execRdr (s : State) : Result := .next (advance 1 (s.setAcc s.romport))

/-- WPM (R224): a no-operation, program memory is not written (D18). -/
def execWpm (s : State) : Result := .next (advance 1 s)

/-- DCL (R225): `cc <- acc`, all 4 bits (D19). -/
def execDcl (s : State) : Result := .next (advance 1 (s.setCc s.acc))

end Sys2Proof.Machine
end

