-- ==== Sys2Proof/Machine/Registers.lean ====
section
/-! DEFINITION. The register file and addressing instructions (41_registers_addressing R160 to R169).
Pair instructions act on the even slot only (R160). -/

namespace Sys2Proof.Machine

/-- FIM p, d8 (R161). -/
def execFim (p : BitVec 3) (d : Byte) (s : State) : Result :=
  .next (advance 2 (setReg (evenSlot p) (lowNibble d) s))

/-- SRC p (R162): the whole selector is replaced. -/
def execSrc (p : BitVec 3) (s : State) : Result :=
  .next (advance 1 (s.setSel (srcSelector (reg (evenSlot p) s) s)))

/-- FIN p (R163): FIN P0 reads `x[0]` before it overwrites it. -/
def execFin (p : BitVec 3) (s : State) : Result :=
  .next (advance 1 (setReg (evenSlot p) (lowNibble (pmFetch (finAddress s) s)) s))

/-- JIN p (R164): writes `sel[7:4]` and does not jump. -/
def execJin (p : BitVec 3) (s : State) : Result :=
  .next (advance 1 (s.setSel (withBank (reg (evenSlot p) s) s.sel)))

/-- XCH r (R165). -/
def execXch (r : Nibble) (s : State) : Result :=
  .next (advance 1 (setReg r s.acc (s.setAcc (reg r s))))

/-- INC r (R166): carry unchanged (D20). -/
def execInc (r : Nibble) (s : State) : Result := .next (advance 1 (setReg r (reg r s + 1) s))

/-- ISZ r, a8 (R167): branches where the incremented register is not zero. -/
def execIsz (r : Nibble) (a : Byte) (s : State) : Result :=
  .next ((setReg r (reg r s + 1) s).setPc (if reg r s + 1 ≠ 0 then shortTarget a s else s.pc + 2))

/-- LD r (R168). -/
def execLd (r : Nibble) (s : State) : Result := .next (advance 1 (s.setAcc (reg r s)))

/-- LDM d (R169). -/
def execLdm (d : Nibble) (s : State) : Result := .next (advance 1 (s.setAcc d))

end Sys2Proof.Machine
end

