-- ==== Sys2Proof/Syntax.lean ====
section
/-! DEFINITION. The instructions: one constructor per row of spec/opcode_table.json, in the table's order (30_encoding R94 to R98). -/

namespace Sys2Proof

/-- A decoded instruction (30_encoding R106). Operands have exactly the width of their field (R92, R93, R99), so every
term is legal (R103). A register is the 4-bit `r`, a pair the 3-bit `p`; the JUN and JMS target is `{h, l}`. -/
inductive Instr where
  /-- NOP, R196; `f` is the ignored low nibble. Log entry 10. -/
  | nop (f : Nibble)
  /-- JCN c, a8, R195. -/
  | jcn (c : Nibble) (a : Byte)
  /-- FIM p, d8, R161. -/
  | fim (p : BitVec 3) (d : Byte)
  /-- SRC p, R162. -/
  | src (p : BitVec 3)
  /-- FIN p, R163. -/
  | fin (p : BitVec 3)
  /-- JIN p, R164. -/
  | jin (p : BitVec 3)
  /-- JUN a12, R192. -/
  | jun (a : Addr)
  /-- JMS a12, R193. -/
  | jms (a : Addr)
  /-- INC r, R166. -/
  | inc (r : Nibble)
  /-- ISZ r, a8, R167. -/
  | isz (r : Nibble) (a : Byte)
  /-- ADD r, R121. -/
  | add (r : Nibble)
  /-- SUB r, R122. -/
  | sub (r : Nibble)
  /-- LD r, R168. -/
  | ld (r : Nibble)
  /-- XCH r, R165. -/
  | xch (r : Nibble)
  /-- BBL d, R194. -/
  | bbl (d : Nibble)
  /-- LDM d, R169. -/
  | ldm (d : Nibble)
  /-- WRM, R211. -/
  | wrm
  /-- WMP, R221. -/
  | wmp
  /-- WRR, R222. -/
  | wrr
  /-- WPM, R224. -/
  | wpm
  /-- WR0, R213. -/
  | wr0
  /-- WR1, R214. -/
  | wr1
  /-- WR2, R215. -/
  | wr2
  /-- WR3, R216. -/
  | wr3
  /-- SBM, R124. -/
  | sbm
  /-- RDM, R212. -/
  | rdm
  /-- RDR, R223. -/
  | rdr
  /-- ADM, R123. -/
  | adm
  /-- RD0, R217. -/
  | rd0
  /-- RD1, R218. -/
  | rd1
  /-- RD2, R219. -/
  | rd2
  /-- RD3, R220. -/
  | rd3
  /-- CLB, R130. -/
  | clb
  /-- CLC, R135. -/
  | clc
  /-- IAC, R125. -/
  | iac
  /-- CMC, R136. -/
  | cmc
  /-- CMA, R129. -/
  | cma
  /-- RAL, R127. -/
  | ral
  /-- RAR, R128. -/
  | rar
  /-- TCC, R131. -/
  | tcc
  /-- DAC, R126. -/
  | dac
  /-- TCS, R132. -/
  | tcs
  /-- STC, R137. -/
  | stc
  /-- DAA, R133. -/
  | daa
  /-- KBP, R134. -/
  | kbp
  /-- DCL, R225. -/
  | dcl
  /-- The unassigned bytes 0xFE and 0xFF, R197; `f` is the ignored bit 0. Log entry 10. -/
  | unassigned (f : Bit)
deriving DecidableEq, Repr

/-- The instruction's length in bytes: exactly JCN, FIM, JUN, JMS and ISZ are two-word (30_encoding R91). -/
def Instr.length : Instr → Nat
  | .jcn _ _ | .fim _ _ | .jun _ | .jms _ | .isz _ _ => 2
  | .nop _ | .src _ | .fin _ | .jin _ | .inc _ | .add _ | .sub _ | .ld _ | .xch _ | .bbl _ | .ldm _ => 1
  | .wrm | .wmp | .wrr | .wpm | .wr0 | .wr1 | .wr2 | .wr3 | .sbm | .rdm | .rdr | .adm | .rd0 | .rd1 | .rd2 | .rd3 => 1
  | .clb | .clc | .iac | .cmc | .cma | .ral | .rar | .tcc | .dac | .tcs | .stc | .daa | .kbp | .dcl | .unassigned _ => 1

/-- The mnemonic of the instruction's row in spec/opcode_table.json (00_scope R13). -/
def Instr.mnemonic : Instr → String
  | .nop _ => "NOP" | .jcn _ _ => "JCN" | .fim _ _ => "FIM" | .src _ => "SRC" | .fin _ => "FIN" | .jin _ => "JIN"
  | .jun _ => "JUN" | .jms _ => "JMS" | .inc _ => "INC" | .isz _ _ => "ISZ" | .add _ => "ADD" | .sub _ => "SUB"
  | .ld _ => "LD" | .xch _ => "XCH" | .bbl _ => "BBL" | .ldm _ => "LDM"
  | .wrm => "WRM" | .wmp => "WMP" | .wrr => "WRR" | .wpm => "WPM" | .wr0 => "WR0" | .wr1 => "WR1" | .wr2 => "WR2"
  | .wr3 => "WR3" | .sbm => "SBM" | .rdm => "RDM" | .rdr => "RDR" | .adm => "ADM" | .rd0 => "RD0" | .rd1 => "RD1"
  | .rd2 => "RD2" | .rd3 => "RD3" | .clb => "CLB" | .clc => "CLC" | .iac => "IAC" | .cmc => "CMC" | .cma => "CMA"
  | .ral => "RAL" | .rar => "RAR" | .tcc => "TCC" | .dac => "DAC" | .tcs => "TCS" | .stc => "STC" | .daa => "DAA"
  | .kbp => "KBP" | .dcl => "DCL" | .unassigned _ => "UNASSIGNED"

end Sys2Proof
end

