-- ==== Sys2Proof/Decode.lean ====
section
/-! DEFINITION. Bytes to instructions and back: 30_encoding R91 to R103, spec/opcode_table.json.
The opcode values are the spec's (its decision D15). -/

namespace Sys2Proof

/-- `OPR = b1[7:4]` (R92). -/
def opr (b1 : Byte) : Nibble := b1.extractLsb' 4 4

/-- `OPA = b1[3:0]` (R92): the fields `r`, `d`, `c`, `h` and `f` (R93, R99). -/
def opa (b1 : Byte) : Nibble := b1.extractLsb' 0 4

/-- The pair field `p = OPA[3:1]` (R93). -/
def pairField (b1 : Byte) : BitVec 3 := b1.extractLsb' 1 3

/-- The sibling bit `s = OPA[0]` (R93). -/
def siblingBit (b1 : Byte) : Bit := b1.extractLsb' 0 1

/-- Is an instruction with this first byte two bytes long? Decided by the first byte alone (R91, R100). -/
def isTwoWord (b1 : Byte) : Bool :=
  match (opr b1).toNat with
  | 1 | 4 | 5 | 7 => true
  | 2 => siblingBit b1 == 0
  | _ => false

/-- Group 0xE, one instruction per low nibble (R96). -/
def decodeGroupE (f : Nibble) : Instr :=
  match f.toNat with
  | 0 => .wrm
  | 1 => .wmp
  | 2 => .wrr
  | 3 => .wpm
  | 4 => .wr0
  | 5 => .wr1
  | 6 => .wr2
  | 7 => .wr3
  | 8 => .sbm
  | 9 => .rdm
  | 10 => .rdr
  | 11 => .adm
  | 12 => .rd0
  | 13 => .rd1
  | 14 => .rd2
  | _ => .rd3

/-- Group 0xF, one instruction per low nibble; 0xE and 0xF are unassigned (R97, R98). -/
def decodeGroupF (f : Nibble) : Instr :=
  match f.toNat with
  | 0 => .clb
  | 1 => .clc
  | 2 => .iac
  | 3 => .cmc
  | 4 => .cma
  | 5 => .ral
  | 6 => .rar
  | 7 => .tcc
  | 8 => .dac
  | 9 => .tcs
  | 10 => .stc
  | 11 => .daa
  | 12 => .kbp
  | 13 => .dcl
  | _ => .unassigned (f.extractLsb' 0 1)

/-- The instruction of a first byte and, for a two-word instruction, its operand byte (R94, R99, R102: total over every
`b1` and `b2`). A one-word instruction does not depend on `b2`. -/
def decodeBytes (b1 b2 : Byte) : Instr :=
  match (opr b1).toNat with
  | 0 => .nop (opa b1)
  | 1 => .jcn (opa b1) b2
  | 2 => if siblingBit b1 = 0 then .fim (pairField b1) b2 else .src (pairField b1)
  | 3 => if siblingBit b1 = 0 then .fin (pairField b1) else .jin (pairField b1)
  | 4 => .jun (opa b1 ++ b2)
  | 5 => .jms (opa b1 ++ b2)
  | 6 => .inc (opa b1)
  | 7 => .isz (opa b1) b2
  | 8 => .add (opa b1)
  | 9 => .sub (opa b1)
  | 10 => .ld (opa b1)
  | 11 => .xch (opa b1)
  | 12 => .bbl (opa b1)
  | 13 => .ldm (opa b1)
  | 14 => decodeGroupE (opa b1)
  | _ => decodeGroupF (opa b1)

/-- Why a sequence of bytes is no instruction. No byte value is rejected (R102, R103), only a sequence that ends early. -/
inductive DecodeError where
  /-- There is no first byte. -/
  | noFirstByte
  /-- The first byte is that of a two-word instruction and no byte follows it. -/
  | noOperandByte (b1 : Byte)
deriving DecidableEq, Repr

/-- Reads one instruction from a sequence of bytes and answers it with the bytes that follow it. -/
def decode : List Byte → Except DecodeError (Instr × List Byte)
  | [] => .error .noFirstByte
  | b1 :: rest =>
    if isTwoWord b1 then
      match rest with
      | [] => .error (.noOperandByte b1)
      | b2 :: rest' => .ok (decodeBytes b1 b2, rest')
    else .ok (decodeBytes b1 0, rest)

/-- The bytes of an instruction, written from the encoding column of spec/opcode_table.json (formats of R92). -/
def encode : Instr → List Byte
  | .nop f => [0x0#4 ++ f]
  | .jcn c a => [0x1#4 ++ c, a]
  | .fim p d => [0x2#4 ++ p ++ 0#1, d]
  | .src p => [0x2#4 ++ p ++ 1#1]
  | .fin p => [0x3#4 ++ p ++ 0#1]
  | .jin p => [0x3#4 ++ p ++ 1#1]
  | .jun a => [0x4#4 ++ a.extractLsb' 8 4, a.extractLsb' 0 8]
  | .jms a => [0x5#4 ++ a.extractLsb' 8 4, a.extractLsb' 0 8]
  | .inc r => [0x6#4 ++ r]
  | .isz r a => [0x7#4 ++ r, a]
  | .add r => [0x8#4 ++ r]
  | .sub r => [0x9#4 ++ r]
  | .ld r => [0xA#4 ++ r]
  | .xch r => [0xB#4 ++ r]
  | .bbl d => [0xC#4 ++ d]
  | .ldm d => [0xD#4 ++ d]
  | .wrm => [0xE0#8]
  | .wmp => [0xE1#8]
  | .wrr => [0xE2#8]
  | .wpm => [0xE3#8]
  | .wr0 => [0xE4#8]
  | .wr1 => [0xE5#8]
  | .wr2 => [0xE6#8]
  | .wr3 => [0xE7#8]
  | .sbm => [0xE8#8]
  | .rdm => [0xE9#8]
  | .rdr => [0xEA#8]
  | .adm => [0xEB#8]
  | .rd0 => [0xEC#8]
  | .rd1 => [0xED#8]
  | .rd2 => [0xEE#8]
  | .rd3 => [0xEF#8]
  | .clb => [0xF0#8]
  | .clc => [0xF1#8]
  | .iac => [0xF2#8]
  | .cmc => [0xF3#8]
  | .cma => [0xF4#8]
  | .ral => [0xF5#8]
  | .rar => [0xF6#8]
  | .tcc => [0xF7#8]
  | .dac => [0xF8#8]
  | .tcs => [0xF9#8]
  | .stc => [0xFA#8]
  | .daa => [0xFB#8]
  | .kbp => [0xFC#8]
  | .dcl => [0xFD#8]
  | .unassigned f => [0x7F#7 ++ f]

/-- A row of spec/opcode_table.json: the first bytes `b1` with `b1 & mask = pattern`, and its mnemonic and length. -/
structure OpcodeRow where
  mnemonic : String
  pattern  : Byte
  mask     : Byte
  length   : Nat
deriving DecidableEq, Repr

/-- Does a first byte belong to the row? -/
def OpcodeRow.covers (row : OpcodeRow) (b1 : Byte) : Bool := b1 &&& row.mask == row.pattern

/-- The rows with operand fields in the first byte, groups 0x0 to 0xD. -/
def opcodeRowsOperand : List OpcodeRow :=
  [⟨"NOP", 0x00, 0xF0, 1⟩, ⟨"JCN", 0x10, 0xF0, 2⟩, ⟨"FIM", 0x20, 0xF1, 2⟩, ⟨"SRC", 0x21, 0xF1, 1⟩,
   ⟨"FIN", 0x30, 0xF1, 1⟩, ⟨"JIN", 0x31, 0xF1, 1⟩, ⟨"JUN", 0x40, 0xF0, 2⟩, ⟨"JMS", 0x50, 0xF0, 2⟩,
   ⟨"INC", 0x60, 0xF0, 1⟩, ⟨"ISZ", 0x70, 0xF0, 2⟩, ⟨"ADD", 0x80, 0xF0, 1⟩, ⟨"SUB", 0x90, 0xF0, 1⟩,
   ⟨"LD", 0xA0, 0xF0, 1⟩, ⟨"XCH", 0xB0, 0xF0, 1⟩, ⟨"BBL", 0xC0, 0xF0, 1⟩, ⟨"LDM", 0xD0, 0xF0, 1⟩]

/-- The rows of group 0xE. -/
def opcodeRowsE : List OpcodeRow :=
  [⟨"WRM", 0xE0, 0xFF, 1⟩, ⟨"WMP", 0xE1, 0xFF, 1⟩, ⟨"WRR", 0xE2, 0xFF, 1⟩, ⟨"WPM", 0xE3, 0xFF, 1⟩,
   ⟨"WR0", 0xE4, 0xFF, 1⟩, ⟨"WR1", 0xE5, 0xFF, 1⟩, ⟨"WR2", 0xE6, 0xFF, 1⟩, ⟨"WR3", 0xE7, 0xFF, 1⟩,
   ⟨"SBM", 0xE8, 0xFF, 1⟩, ⟨"RDM", 0xE9, 0xFF, 1⟩, ⟨"RDR", 0xEA, 0xFF, 1⟩, ⟨"ADM", 0xEB, 0xFF, 1⟩,
   ⟨"RD0", 0xEC, 0xFF, 1⟩, ⟨"RD1", 0xED, 0xFF, 1⟩, ⟨"RD2", 0xEE, 0xFF, 1⟩, ⟨"RD3", 0xEF, 0xFF, 1⟩]

/-- The rows of group 0xF. -/
def opcodeRowsF : List OpcodeRow :=
  [⟨"CLB", 0xF0, 0xFF, 1⟩, ⟨"CLC", 0xF1, 0xFF, 1⟩, ⟨"IAC", 0xF2, 0xFF, 1⟩, ⟨"CMC", 0xF3, 0xFF, 1⟩,
   ⟨"CMA", 0xF4, 0xFF, 1⟩, ⟨"RAL", 0xF5, 0xFF, 1⟩, ⟨"RAR", 0xF6, 0xFF, 1⟩, ⟨"TCC", 0xF7, 0xFF, 1⟩,
   ⟨"DAC", 0xF8, 0xFF, 1⟩, ⟨"TCS", 0xF9, 0xFF, 1⟩, ⟨"STC", 0xFA, 0xFF, 1⟩, ⟨"DAA", 0xFB, 0xFF, 1⟩,
   ⟨"KBP", 0xFC, 0xFF, 1⟩, ⟨"DCL", 0xFD, 0xFF, 1⟩, ⟨"UNASSIGNED", 0xFE, 0xFE, 1⟩]

/-- The opcode table, in its order. -/
def opcodeTable : List OpcodeRow := opcodeRowsOperand ++ opcodeRowsE ++ opcodeRowsF

/-- The table's row for an instruction, by the constructor alone: what spec/opcode_table.json gives that mnemonic. -/
def Instr.opcodeRow (i : Instr) : Option OpcodeRow := opcodeTable.find? fun row => row.mnemonic == i.mnemonic

/-- The longest instruction, in bytes (R91). -/
def maxLength : Nat := 2

/-- Byte `k` of an instruction whose bits are numbered as spec/opcode_table.json numbers them: byte 0 is the first byte.
Bits from `nbits` up are 0. -/
def tableByte (nbits w k : Nat) : Byte := BitVec.ofNat 8 (w % 2 ^ nbits / 2 ^ (8 * k))

/-- The bytes of such an instruction as the hardware stores them, up to the longest instruction, the first byte first. -/
def tableBytes (nbits w : Nat) : List Byte := (List.range maxLength).map (tableByte nbits w)

/-- The instruction the decoder reads from such bits. -/
def decodeTableWord (nbits w : Nat) : Option Instr :=
  match decode (tableBytes nbits w) with
  | .ok (i, _) => some i
  | .error _ => none

end Sys2Proof
end

