-- ==== Sys2Proof/Machine/Fetch.lean ====
section
/-! DEFINITION. Fetching and placing an instruction's bytes (30_encoding R90, R91; 20_memory R62). -/

namespace Sys2Proof.Machine

/-- The address of the operand byte, `(pc + 1) mod 4096` (R91). -/
def operandAddress (s : State) : Addr := s.pc + 1

/-- The bytes the step fetches: `b1` at `pc`, and `b2` only for a two-word instruction (R90). -/
def fetchedBytes (s : State) : List Byte :=
  let b1 := pmFetch s.pc s
  if isTwoWord b1 then [b1, pmFetch (operandAddress s) s] else [b1]

/-- The instruction at `pc`. A one-word instruction does not depend on the second byte. -/
def fetchedInstr (s : State) : Instr := decodeBytes (pmFetch s.pc s) (pmFetch (operandAddress s) s)

/-- Stores a byte of program memory, where the address holds a cell; a byte for another address is dropped (20_memory R81). -/
def pmStore (a : Nat) (b : Byte) (s : State) : State :=
  if a < s.config.pmSize then s.setPm (s.pm.write a b) else s

/-- Gives program memory a cell at `pc` and at `pc + 1`, where one is lacking, by taking the largest `PM_SIZE`, 4096. -/
def withCellsAtPc (s : State) : State :=
  if s.pc.toNat < s.config.pmSize ∧ (operandAddress s).toNat < s.config.pmSize then s
  else s.setConfig { s.config with pmSize := 4096 }

end Sys2Proof.Machine
end

