-- ==== Sys2Proof/Machine/Step.lean ====
section
/-! DEFINITION. One step: fetch, decode, execute (30_encoding R90). -/

namespace Sys2Proof.Machine

/-- `step()` "performs exactly one fetch-decode-execute cycle" (R90). -/
def step (s : State) : Host.Outcome State Fault Refusal := exec (fetchedInstr s) s

/-- The state with an instruction, its bits numbered as spec/opcode_table.json numbers them, stored at `pc`, where `step`
fetches: it stands for the host's load (20_memory R81). Log entry 5. -/
def State.withFetchWord (s : State) (nbits w : Nat) : State :=
  pmStore (operandAddress s).toNat (tableByte nbits w 1) (pmStore s.pc.toNat (tableByte nbits w 0) (withCellsAtPc s))

end Sys2Proof.Machine
end

