-- ==== Sys2Proof/WellFormed.lean ====
section
/-! DEFINITION. What is well formed: an instruction, a sequence of bytes that is one instruction, and a line of the
assembler syntax of 30_encoding R104 with its operand ranges. -/

namespace Sys2Proof

/-- "Every operand value of every format is legal" (30_encoding R103): the operands of `Instr` have exactly their
fields' widths, so no term of it is ill formed. -/
def Instr.wellFormed : Instr → Bool
  | .nop _ | .jcn _ _ | .fim _ _ | .src _ | .fin _ | .jin _ | .jun _ | .jms _ | .inc _ | .isz _ _ => true
  | .add _ | .sub _ | .ld _ | .xch _ | .bbl _ | .ldm _ => true
  | .wrm | .wmp | .wrr | .wpm | .wr0 | .wr1 | .wr2 | .wr3 | .sbm | .rdm | .rdr | .adm | .rd0 | .rd1 | .rd2 | .rd3 => true
  | .clb | .clc | .iac | .cmc | .cma | .ral | .rar | .tcc | .dac | .tcs | .stc | .daa | .kbp | .dcl | .unassigned _ => true

/-- Are these bytes exactly one instruction? One byte, or two where the first byte is that of a two-word instruction
(30_encoding R91, R100). -/
def bytesWellFormed : List Byte → Bool
  | [] => false
  | [b1] => !isTwoWord b1
  | [b1, _] => isTwoWord b1
  | _ :: _ :: _ :: _ => false

/-- A line of the assembler syntax (30_encoding R104), its operands the numbers as written. -/
inductive SourceLine where
  | jcn (c a8 : Nat)
  | fim (p d8 : Nat)
  | src (p : Nat)
  | fin (p : Nat)
  | jin (p : Nat)
  | jun (a12 : Nat)
  | jms (a12 : Nat)
  | inc (r : Nat)
  | isz (r a8 : Nat)
  | add (r : Nat)
  | sub (r : Nat)
  | ld (r : Nat)
  | xch (r : Nat)
  | bbl (d : Nat)
  | ldm (d : Nat)
  /-- A mnemonic without operands, named by its instruction. -/
  | plain (i : Instr)
deriving DecidableEq, Repr

/-- The instructions whose mnemonic takes no operand in R104: NOP (byte 0x00) and those of R96 and R97. -/
def Instr.takesNoOperand : Instr → Bool
  | .nop f => f == 0
  | .wrm | .wmp | .wrr | .wpm | .wr0 | .wr1 | .wr2 | .wr3 | .sbm | .rdm | .rdr | .adm | .rd0 | .rd1 | .rd2 | .rd3 => true
  | .clb | .clc | .iac | .cmc | .cma | .ral | .rar | .tcc | .dac | .tcs | .stc | .daa | .kbp | .dcl => true
  | .unassigned _ => false
  | .jcn _ _ | .fim _ _ | .src _ | .fin _ | .jin _ | .jun _ | .jms _ | .inc _ | .isz _ _ => false
  | .add _ | .sub _ | .ld _ | .xch _ | .bbl _ | .ldm _ => false

/-- The operand ranges of R104: registers 0 to 15, pairs 0 to 7, conditions and 4-bit immediates 0 to 15, bytes 0 to 255,
long targets 0x000 to 0xFFF. -/
def SourceLine.wellFormed : SourceLine → Bool
  | .jcn c a8 => c < 16 && a8 < 256
  | .fim p d8 => p < 8 && d8 < 256
  | .src p | .fin p | .jin p => p < 8
  | .jun a12 | .jms a12 => a12 < 4096
  | .isz r a8 => r < 16 && a8 < 256
  | .inc r | .add r | .sub r | .ld r | .xch r => r < 16
  | .bbl d | .ldm d => d < 16
  | .plain i => i.takesNoOperand

end Sys2Proof
end

