-- ==== Sys2Proof/Machine/Assembly.lean ====
section
/-! DEFINITION. The assembler syntax of 30_encoding R104: lines to instructions and back, labels, and a line's text.
The step does not use it; there are no pseudo-instructions (R105). -/

namespace Sys2Proof.Machine

/-- The instruction of a line, none where an operand is outside its range (R104). -/
def assembleLine (l : SourceLine) : Option Instr :=
  if l.wellFormed then
    match l with
    | .jcn c a => some (.jcn (BitVec.ofNat 4 c) (BitVec.ofNat 8 a))
    | .fim p d => some (.fim (BitVec.ofNat 3 p) (BitVec.ofNat 8 d))
    | .src p => some (.src (BitVec.ofNat 3 p))
    | .fin p => some (.fin (BitVec.ofNat 3 p))
    | .jin p => some (.jin (BitVec.ofNat 3 p))
    | .jun a => some (.jun (BitVec.ofNat 12 a))
    | .jms a => some (.jms (BitVec.ofNat 12 a))
    | .inc r => some (.inc (BitVec.ofNat 4 r))
    | .isz r a => some (.isz (BitVec.ofNat 4 r) (BitVec.ofNat 8 a))
    | .add r => some (.add (BitVec.ofNat 4 r))
    | .sub r => some (.sub (BitVec.ofNat 4 r))
    | .ld r => some (.ld (BitVec.ofNat 4 r))
    | .xch r => some (.xch (BitVec.ofNat 4 r))
    | .bbl d => some (.bbl (BitVec.ofNat 4 d))
    | .ldm d => some (.ldm (BitVec.ofNat 4 d))
    | .plain i => some i
  else none

/-- The line of an instruction; the bytes 0x01 to 0x0F, 0xFE and 0xFF have no mnemonic of their own (R104). -/
def sourceLine (i : Instr) : Option SourceLine :=
  match i with
  | .jcn c a => some (.jcn c.toNat a.toNat)
  | .fim p d => some (.fim p.toNat d.toNat)
  | .src p => some (.src p.toNat)
  | .fin p => some (.fin p.toNat)
  | .jin p => some (.jin p.toNat)
  | .jun a => some (.jun a.toNat)
  | .jms a => some (.jms a.toNat)
  | .inc r => some (.inc r.toNat)
  | .isz r a => some (.isz r.toNat a.toNat)
  | .add r => some (.add r.toNat)
  | .sub r => some (.sub r.toNat)
  | .ld r => some (.ld r.toNat)
  | .xch r => some (.xch r.toNat)
  | .bbl d => some (.bbl d.toNat)
  | .ldm d => some (.ldm d.toNat)
  | .nop f => if f = 0 then some (.plain (.nop f)) else none
  | .unassigned _ => none
  | .wrm | .wmp | .wrr | .wpm | .wr0 | .wr1 | .wr2 | .wr3 | .sbm | .rdm | .rdr | .adm | .rd0 | .rd1 | .rd2 | .rd3 => some (.plain i)
  | .clb | .clc | .iac | .cmc | .cma | .ral | .rar | .tcc | .dac | .tcs | .stc | .daa | .kbp | .dcl => some (.plain i)

/-- A label used as `a8` in the JCN or ISZ at `pc`: its low 8 bits, if it lies on the page of `pc + 2` (R104). -/
def shortLabel (pc label : Addr) : Option Byte :=
  if label.extractLsb' 8 4 = (pc + 2).extractLsb' 8 4 then some (label.extractLsb' 0 8) else none

/-- The line as text (R104): operands separated by a comma and a space, numbers decimal. -/
def lineText (l : SourceLine) : String :=
  match l with
  | .jcn c a => "JCN " ++ c.repr ++ ", " ++ a.repr
  | .fim p d => "FIM P" ++ p.repr ++ ", " ++ d.repr
  | .src p => "SRC P" ++ p.repr
  | .fin p => "FIN P" ++ p.repr
  | .jin p => "JIN P" ++ p.repr
  | .jun a => "JUN " ++ a.repr
  | .jms a => "JMS " ++ a.repr
  | .inc r => "INC R" ++ r.repr
  | .isz r a => "ISZ R" ++ r.repr ++ ", " ++ a.repr
  | .add r => "ADD R" ++ r.repr
  | .sub r => "SUB R" ++ r.repr
  | .ld r => "LD R" ++ r.repr
  | .xch r => "XCH R" ++ r.repr
  | .bbl d => "BBL " ++ d.repr
  | .ldm d => "LDM " ++ d.repr
  | .plain i => i.mnemonic

end Sys2Proof.Machine
end

