-- ==== Sys2Proof/Machine/Bus.lean ====
section
/-! DEFINITION. The transactions of a step on the CORE's ports, in order (20_memory R84). `cc` is an output held in State. -/

namespace Sys2Proof.Machine

/-- One transaction (R84), with the value it moves. -/
inductive Access where
  /-- `pm_addr`, `pm_data`: one `PmFetch`. -/
  | pmFetch (a : Addr) (data : Byte)
  /-- `dm_index`, `dm_rdata`. -/
  | dmRead (i : Byte) (v : Nibble)
  /-- `dm_index`, `dm_wdata`, `dm_we`. -/
  | dmWrite (i : Byte) (v : Nibble)
  /-- `st_index`, `st_rdata`. -/
  | stRead (j : Nibble) (v : Nibble)
  /-- `st_index`, `st_wdata`, `st_we`. -/
  | stWrite (j : Nibble) (v : Nibble)
  /-- `romport` read. -/
  | romportRead (v : Nibble)
  /-- `romport` write. -/
  | romportWrite (v : Nibble)
  /-- `dmport` write. -/
  | dmportWrite (v : Nibble)
  /-- `TEST` sampled (JCN only). -/
  | testSample (v : Bit)
deriving DecidableEq, Repr

/-- The fetches of `b1` and, for a two-word instruction, of `b2` (30_encoding R90). -/
def fetchAccesses (s : State) : List Access :=
  .pmFetch s.pc (pmFetch s.pc s) ::
    (if isTwoWord (pmFetch s.pc s) then [.pmFetch (operandAddress s) (pmFetch (operandAddress s) s)] else [])

/-- The write of status character `n` (43_memory_io R213 to R216). -/
def statusWriteAccess (n : Nat) (s : State) : List Access := [.stWrite (BitVec.ofNat 4 (statIndex n s)) s.acc]

/-- The read of status character `n` (43_memory_io R217 to R220). -/
def statusReadAccess (n : Nat) (s : State) : List Access :=
  [.stRead (BitVec.ofNat 4 (statIndex n s)) (statRead (statIndex n s) s)]

/-- The transactions of an instruction's own rule. -/
def instrAccesses (i : Instr) (s : State) : List Access :=
  match i with
  | .fin _ => [.pmFetch (finAddress s) (pmFetch (finAddress s) s)]
  | .jcn c _ => if jcnSamplesTest c then [.testSample (testValue s)] else []
  | .wrm => [.dmWrite s.sel s.acc]
  | .rdm | .adm | .sbm => [.dmRead s.sel (memRead s.sel.toNat s)]
  | .wr0 => statusWriteAccess 0 s
  | .wr1 => statusWriteAccess 1 s
  | .wr2 => statusWriteAccess 2 s
  | .wr3 => statusWriteAccess 3 s
  | .rd0 => statusReadAccess 0 s
  | .rd1 => statusReadAccess 1 s
  | .rd2 => statusReadAccess 2 s
  | .rd3 => statusReadAccess 3 s
  | .wmp => [.dmportWrite s.acc]
  | .wrr => [.romportWrite s.acc]
  | .rdr => [.romportRead s.romport]
  | .nop _ | .fim _ _ | .src _ | .jin _ | .jun _ | .jms _ | .inc _ | .isz _ _ | .add _ | .sub _ => []
  | .ld _ | .xch _ | .bbl _ | .ldm _ | .wpm => []
  | .clb | .clc | .iac | .cmc | .cma | .ral | .rar | .tcc | .dac | .tcs | .stc | .daa | .kbp | .dcl | .unassigned _ => []

/-- The transaction list of one step (R84). -/
def stepAccesses (s : State) : List Access := fetchAccesses s ++ instrAccesses (fetchedInstr s) s

/-- What a transaction does to the units outside the CORE: a write stores its value, a read has no effect (20_memory R73),
a sampling of TEST uses up a draw. -/
def Access.apply (x : Access) (s : State) : State :=
  match x with
  | .dmWrite i v => s.setDm (s.dm.write i.toNat v)
  | .stWrite j v => s.setSt (s.st.write j.toNat v)
  | .romportWrite v => s.setRomport v
  | .dmportWrite v => s.setDmport v
  | .testSample _ => sampleTest true s
  | .pmFetch _ _ | .dmRead _ _ | .stRead _ _ | .romportRead _ => s

/-- Does a read carry the value of the cell it names in `s`? A write says nothing of the state before it. -/
def Access.carries (x : Access) (s : State) : Bool :=
  match x with
  | .pmFetch a v => v == Machine.pmFetch a s
  | .dmRead i v => v == memRead i.toNat s
  | .stRead j v => v == statRead j.toNat s
  | .romportRead v => v == s.romport
  | .testSample v => v == testValue s
  | .dmWrite _ _ | .stWrite _ _ | .romportWrite _ | .dmportWrite _ => true

/-- Is it a fetch from program memory? -/
def Access.isPmFetch : Access → Bool
  | .pmFetch _ _ => true
  | .dmRead _ _ | .dmWrite _ _ | .stRead _ _ | .stWrite _ _ | .romportRead _ | .romportWrite _ | .dmportWrite _ | .testSample _ => false

/-- Is it an access to data memory, main or status? -/
def Access.isData : Access → Bool
  | .dmRead _ _ | .dmWrite _ _ | .stRead _ _ | .stWrite _ _ => true
  | .pmFetch _ _ | .romportRead _ | .romportWrite _ | .dmportWrite _ | .testSample _ => false

/-- Is it an access to a port register? -/
def Access.isPort : Access → Bool
  | .romportRead _ | .romportWrite _ | .dmportWrite _ => true
  | .pmFetch _ _ | .dmRead _ _ | .dmWrite _ _ | .stRead _ _ | .stWrite _ _ | .testSample _ => false

end Sys2Proof.Machine
end

