-- ==== Sys2Proof/Machine/Environment.lean ====
section
/-! DEFINITION. What the host can do between steps: 20_memory R80 to R83, 70_reset R260, R261, 30_encoding R106. -/

namespace Sys2Proof.Machine

/-- The elements of 10_state R20, each one value. -/
inductive Element where
  | pc
  | acc
  | cy
  | x (i : Fin 16)
  | cc
  | stack (i : Fin 3)
  | sp
  | sel
  | pm (a : Addr)
  | romport
  | dm (i : Fin 256)
  | st (j : Fin 16)
  | dmport
deriving DecidableEq, Repr

/-- How many values the element has: those below this bound are its range (R20, R83). -/
def elementRange : Element → Nat
  | .pc | .stack _ => 4096
  | .acc | .x _ | .cc | .romport | .dm _ | .st _ | .dmport => 16
  | .cy => 2
  | .sp => 4
  | .sel | .pm _ => 256

/-- The host reads an element (R82). A program-memory address without a cell reads 0x00 (R62). -/
def hostRead (e : Element) (s : State) : Nat :=
  match e with
  | .pc => s.pc.toNat
  | .acc => s.acc.toNat
  | .cy => s.cy.toNat
  | .x i => (s.x[i.val]).toNat
  | .cc => s.cc.toNat
  | .stack i => (s.stack[i.val]).toNat
  | .sp => s.sp.val
  | .sel => s.sel.toNat
  | .pm a => (pmFetch a s).toNat
  | .romport => s.romport.toNat
  | .dm i => (memRead i.val s).toNat
  | .st j => (statRead j.val s).toNat
  | .dmport => s.dmport.toNat

/-- Replaces the element's value; `v` is in its range. -/
def hostSet (e : Element) (v : Nat) (s : State) : Result :=
  match e with
  | .pc => .next (s.setPc (BitVec.ofNat 12 v))
  | .acc => .next (s.setAcc (BitVec.ofNat 4 v))
  | .cy => .next (s.setCy (BitVec.ofNat 1 v))
  | .x i => .next (s.setX (s.x.set i.val (BitVec.ofNat 4 v)))
  | .cc => .next (s.setCc (BitVec.ofNat 4 v))
  | .stack i => .next (s.setStack (s.stack.set i.val (BitVec.ofNat 12 v)))
  | .sp => .next (s.setSp (Fin.ofNat 4 v))
  | .sel => .next (s.setSel (BitVec.ofNat 8 v))
  | .pm a => if a.toNat < s.config.pmSize then .next (pmStore a.toNat (BitVec.ofNat 8 v) s) else .refused .hostNoSuchCell
  | .romport => .next (s.setRomport (BitVec.ofNat 4 v))
  | .dm i => memWrite i.val (BitVec.ofNat 4 v) s
  | .st j => statWrite j.val (BitVec.ofNat 4 v) s
  | .dmport => .next (s.setDmport (BitVec.ofNat 4 v))

/-- The host writes an element (R82): "a host write of an out-of-range value ... the model refuses it rather than masking
it" (R83). -/
def hostWrite (e : Element) (v : Nat) (s : State) : Result :=
  if v < elementRange e then hostSet e v s else .refused .hostValueOutOfRange

/-- Copies bytes to program memory from address `a` on, dropping those beyond `PM_SIZE` (R81). -/
def loadFrom (a : Nat) (image : List Byte) (s : State) : State :=
  match image with
  | [] => s
  | b :: rest => loadFrom (a + 1) rest (pmStore a b s)

/-- `load(bytes)`: a flat image, copied from offset 0 (R80, R81). -/
def loadImage (image : List Byte) (s : State) : State := loadFrom 0 image s

/-- The reset input, taken between steps: every element takes its construction value except `pm` (70_reset R261).
The parameters are fixed for a run, and the TEST draws go on (log entry 7). -/
def resetInput (s : State) : State :=
  { State.reset with pm := s.pm, config := s.config, testDraws := s.testDraws }

/-- What can happen to the CORE: the events of its interface (20_memory R82, R84). -/
inductive Event where
  /-- One `step()`. -/
  | step
  /-- The reset input. -/
  | resetIn
  /-- The host loads a program image. -/
  | load (image : List Byte)
  /-- The host writes an element. -/
  | write (e : Element) (v : Nat)
  /-- The host executes a decoded instruction directly (30_encoding R106). -/
  | direct (i : Instr)
deriving DecidableEq, Repr

/-- What the CORE answers to an event. -/
def react (e : Event) (s : State) : Result :=
  match e with
  | .step => step s
  | .resetIn => .next (resetInput s)
  | .load image => .next (loadImage image s)
  | .write el v => hostWrite el v s
  | .direct i => exec i s

/-- A sequence of events, ending at the first fault or refusal. -/
def reactAll (es : List Event) (s : State) : Result :=
  match es with
  | [] => .next s
  | e :: rest =>
    match react e s with
    | .next s' => reactAll rest s'
    | .fault f => .fault f
    | .refused r => .refused r

end Sys2Proof.Machine
end

