-- ==== Sys2Proof/Safety.lean ====
section
/-! DEFINITION. The terms of the claims: the model's invariant, the stack invariant, the end of a run, and classes of
instructions named by the rules about the whole machine. -/

namespace Sys2Proof.Machine

/-- The states a run can reach as data: `PM_SIZE` in its range (00_scope R5) and each memory canonical within its space
(10_state R39, R41, R42). -/
abbrev State.wf (s : State) : Prop :=
  1 ≤ s.config.pmSize ∧ s.config.pmSize ≤ 4096 ∧
  Memory.wf s.config.pmSize s.pm = true ∧ Memory.wf dmSize s.dm = true ∧ Memory.wf stSize s.st = true

/-- The stack invariant (10_state R35): every slot `stack[i]` with `i ≥ sp` holds 0x000. -/
abbrev State.stackClear (s : State) : Prop := ∀ i : Fin 3, s.sp.val ≤ i.val → s.stack[i.val] = 0

/-- The end of a run (70_reset R269): the instruction at `pc` is `JUN pc`. The hardware does not stop there. -/
abbrev State.atEnd (s : State) : Prop := fetchedInstr s = .jun s.pc

/-- Two states that agree on the CORE (00_scope R2: all of 10_state R20 but the two memory units) and on the parameters of
its own instructions. They may differ in the memories, the ports, `PM_SIZE` and the TEST draws. -/
abbrev State.sameCore (s u : State) : Prop :=
  s.pc = u.pc ∧ s.acc = u.acc ∧ s.cy = u.cy ∧ s.x = u.x ∧ s.cc = u.cc ∧ s.stack = u.stack ∧ s.sp = u.sp ∧ s.sel = u.sel ∧
  s.config.srcShift = u.config.srcShift ∧ s.config.carryOps = u.config.carryOps

/-- `k` steps, ending at the first fault or refusal. -/
def runSteps : Nat → State → Result
  | 0, s => .next s
  | k + 1, s =>
    match step s with
    | .next t => runSteps k t
    | .fault e => .fault e
    | .refused r => .refused r

end Sys2Proof.Machine

namespace Sys2Proof

/-- The control transfers of 10_state R27: JUN, JMS, BBL, and JCN and ISZ, which may transfer. -/
def Instr.mayTransfer : Instr → Bool
  | .jcn _ _ | .jun _ | .jms _ | .isz _ _ | .bbl _ => true
  | .nop _ | .fim _ _ | .src _ | .fin _ | .jin _ | .inc _ | .add _ | .sub _ | .ld _ | .xch _ | .ldm _ => false
  | .wrm | .wmp | .wrr | .wpm | .wr0 | .wr1 | .wr2 | .wr3 | .sbm | .rdm | .rdr | .adm | .rd0 | .rd1 | .rd2 | .rd3 => false
  | .clb | .clc | .iac | .cmc | .cma | .ral | .rar | .tcc | .dac | .tcs | .stc | .daa | .kbp | .dcl | .unassigned _ => false

/-- The writers of `cy` that 10_state R22 lists. -/
def Instr.writesCarry : Instr → Bool
  | .add _ | .sub _ | .adm | .sbm | .iac | .dac | .ral | .rar | .clb | .tcc | .tcs | .daa | .clc | .cmc | .stc => true
  | .nop _ | .jcn _ _ | .fim _ _ | .src _ | .fin _ | .jin _ | .jun _ | .jms _ | .inc _ | .isz _ _ => false
  | .ld _ | .xch _ | .bbl _ | .ldm _ | .cma | .kbp | .dcl | .unassigned _ => false
  | .wrm | .wmp | .wrr | .wpm | .wr0 | .wr1 | .wr2 | .wr3 | .rdm | .rdr | .rd0 | .rd1 | .rd2 | .rd3 => false

/-- The readers of `cy` that 10_state R22 lists; JCN reads it where its condition has the carry test. -/
def Instr.readsCarry : Instr → Bool
  | .add _ | .sub _ | .adm | .sbm | .ral | .rar | .tcc | .tcs | .daa | .cmc | .jcn _ _ => true
  | .nop _ | .fim _ _ | .src _ | .fin _ | .jin _ | .jun _ | .jms _ | .inc _ | .isz _ _ => false
  | .ld _ | .xch _ | .bbl _ | .ldm _ | .iac | .dac | .clb | .clc | .stc | .cma | .kbp | .dcl | .unassigned _ => false
  | .wrm | .wmp | .wrr | .wpm | .wr0 | .wr1 | .wr2 | .wr3 | .rdm | .rdr | .rd0 | .rd1 | .rd2 | .rd3 => false

/-- The instructions whose rules write `acc` (10_state R21). -/
def Instr.writesAcc : Instr → Bool
  | .add _ | .sub _ | .adm | .sbm | .iac | .dac | .ral | .rar | .cma | .clb | .tcc | .tcs | .daa | .kbp => true
  | .ld _ | .xch _ | .bbl _ | .ldm _ | .rdm | .rdr | .rd0 | .rd1 | .rd2 | .rd3 => true
  | .nop _ | .jcn _ _ | .fim _ _ | .src _ | .fin _ | .jin _ | .jun _ | .jms _ | .inc _ | .isz _ _ => false
  | .wrm | .wmp | .wrr | .wpm | .wr0 | .wr1 | .wr2 | .wr3 | .clc | .cmc | .stc | .dcl | .unassigned _ => false

/-- The index register an instruction writes (10_state R25). -/
def Instr.writesReg : Instr → Option Nibble
  | .xch r | .inc r | .isz r _ => some r
  | .fim p _ | .fin p => some (Machine.evenSlot p)
  | .nop _ | .jcn _ _ | .src _ | .jin _ | .jun _ | .jms _ | .add _ | .sub _ | .ld _ | .bbl _ | .ldm _ => none
  | .wrm | .wmp | .wrr | .wpm | .wr0 | .wr1 | .wr2 | .wr3 | .sbm | .rdm | .rdr | .adm | .rd0 | .rd1 | .rd2 | .rd3 => none
  | .clb | .clc | .iac | .cmc | .cma | .ral | .rar | .tcc | .dac | .tcs | .stc | .daa | .kbp | .dcl | .unassigned _ => none

/-- The index register an instruction reads (10_state R25). -/
def Instr.readsReg : Instr → Option Nibble
  | .add r | .sub r | .ld r | .xch r | .inc r | .isz r _ => some r
  | .src p | .jin p => some (Machine.evenSlot p)
  | .fin _ => some 0
  | .nop _ | .jcn _ _ | .fim _ _ | .jun _ | .jms _ | .bbl _ | .ldm _ => none
  | .wrm | .wmp | .wrr | .wpm | .wr0 | .wr1 | .wr2 | .wr3 | .sbm | .rdm | .rdr | .adm | .rd0 | .rd1 | .rd2 | .rd3 => none
  | .clb | .clc | .iac | .cmc | .cma | .ral | .rar | .tcc | .dac | .tcs | .stc | .daa | .kbp | .dcl | .unassigned _ => none

end Sys2Proof
end

