-- ==== Sys2Proof/Certificates/Slice0/Obligations.lean ====
section
/-! DEFINITION. The statements for the provers, from the numbered rules of spec/.
A frame is written `t = { s with … }`: every field of State that is not named keeps its value, memories and parameters
included. `s.pc + 1` is addition on 12 bits, modulo 4096. -/

open Sys2Proof Sys2Proof.Machine

/-! ### Encoding -/

/-- Decoding the bytes of an instruction gives it back, whatever follows: no bit of an encoding is dropped (30_encoding
R102; the opcode values are the spec's decision D15). -/
def Obligations.DecodeEncodeRoundTrip : Prop :=
  ∀ (i : Instr) (rest : List Byte), i.wellFormed = true → decode (encode i ++ rest) = .ok (i, rest)

/-- Each word has one meaning: what the decoder reads encodes to the bytes it read (30_encoding R102). -/
def Obligations.EncodeDecodeRoundTrip : Prop :=
  ∀ (bs : List Byte) (i : Instr) (rest : List Byte), decode bs = .ok (i, rest) → encode i ++ rest = bs

/-- A few words written out from the encoding tables (30_encoding R92 to R97; decision D15). -/
def Obligations.SpecWordsDecode : Prop :=
  decode [0x00] = .ok (.nop 0, []) ∧ decode [0x14, 0x08] = .ok (.jcn 4 0x08, []) ∧
  decode [0x24, 0x35] = .ok (.fim 2 0x35, []) ∧ decode [0x37] = .ok (.jin 3, []) ∧
  decode [0x51, 0x23] = .ok (.jms 0x123, []) ∧ decode [0x92] = .ok (.sub 2, []) ∧
  decode [0xC5] = .ok (.bbl 5, []) ∧ decode [0xE8] = .ok (.sbm, []) ∧ decode [0xFB] = .ok (.daa, [])

/-- The first byte alone decides the length, exactly JCN, FIM, JUN, JMS and ISZ are two-word, and the step fetches
`b2` from `(pc + 1) mod 4096` for them only: `step` executes the instruction that exactly the fetched bytes are, whatever it
then does (30_encoding R91). -/
def Obligations.FirstByteDecidesLength : Prop :=
  (∀ b1 b2 b2' : Byte, (decodeBytes b1 b2).length = (decodeBytes b1 b2').length) ∧
  (∀ i : Instr, (i.length = 1 ∨ i.length = 2) ∧
    (i.length = 2 ↔ (∃ c a, i = .jcn c a) ∨ (∃ p d, i = .fim p d) ∨ (∃ a, i = .jun a) ∨ (∃ a, i = .jms a) ∨
      (∃ r a, i = .isz r a))) ∧
  (∀ s : State, ∃ i, decode (fetchedBytes s) = .ok (i, []) ∧ step s = exec i s ∧
    fetchedBytes s = pmFetch s.pc s ::
      (if i.length = 2 then [pmFetch (BitVec.ofNat 12 ((s.pc.toNat + 1) % 4096)) s] else []))

/-- No byte value is rejected: any two bytes begin with an instruction; a single byte is rejected exactly where its
instruction is two-word, and no bytes are rejected as such (30_encoding R102, R103). -/
def Obligations.DecodingIsTotal : Prop :=
  (∀ (b1 b2 : Byte) (rest : List Byte), ∃ i rest', decode (b1 :: b2 :: rest) = .ok (i, rest')) ∧
  (∀ b1 : Byte, decode [b1] = .error (.noOperandByte b1) ↔ (decodeBytes b1 0).length = 2) ∧
  decode [] = .error .noFirstByte

/-- Every first byte selects exactly one row of the opcode table, the row of the decoded instruction's mnemonic and
length (30_encoding R102, spec/opcode_table.json). -/
def Obligations.FirstByteSelectsOneRow : Prop :=
  ∀ b1 b2 : Byte, ∃ row ∈ opcodeTable, row.covers b1 = true ∧ row.mnemonic = (decodeBytes b1 b2).mnemonic ∧
    row.length = (decodeBytes b1 b2).length ∧ ∀ row' ∈ opcodeTable, row'.covers b1 = true → row' = row

/-- The bytes 0x00 to 0x0F, 0xFE and 0xFF advance `pc` by one and change nothing else (30_encoding R98; which bytes are
unassigned is the spec's inference there). -/
def Obligations.UnmappedBytesOnlyAdvance : Prop :=
  ∀ s : State, pmFetch s.pc s < 0x10 ∨ pmFetch s.pc s = 0xFE ∨ pmFetch s.pc s = 0xFF →
    step s = .next { s with pc := s.pc + 1 }

/-! ### The step -/

/-- A step executes the instruction that the bytes at `pc` decode to, and does nothing around it (30_encoding R90). -/
def Obligations.StepRunsDecodedInstruction : Prop :=
  ∀ (s : State) (i : Instr) (rest : List Byte),
    decode [pmFetch s.pc s, pmFetch (s.pc + 1) s] = .ok (i, rest) → i.wellFormed = true → step s = exec i s

/-- No instruction raises an exception, from any state, and no step stops (60_exceptions R240). -/
def Obligations.EveryStepCompletes : Prop :=
  (∀ (i : Instr) (s : State), ∃ t, exec i s = .next t) ∧ ∀ s : State, ∃ t, step s = .next t

/-- The new `pc` (10_state section 3): the address after the instruction, or the target of JUN, JMS and BBL, or one of the
two for JCN and ISZ. The targets are the spec's decisions: no advance after a transfer D14, the popped value D12, the short
target D11, JCN's condition D9 and its TEST D10, which is the model's free draw (log entry 4); `pc` has 12 bits by D2. -/
def Obligations.PcAdvancesOrTransfers : Prop :=
  ∀ (i : Instr) (s : State), ∃ t, exec i s = .next t ∧
    (i.mayTransfer = false → t.pc.toNat = (s.pc.toNat + i.length) % 4096) ∧
    (∀ a, i = .jun a ∨ i = .jms a → t.pc = a) ∧
    (∀ d, i = .bbl d → t.pc = popValue s) ∧
    (∀ c a, i = .jcn c a → t.pc = if jcnTaken c (testValue s) s then shortTarget a s else s.pc + 2) ∧
    (∀ r a, i = .isz r a → t.pc = if reg r s = 15 then s.pc + 2 else shortTarget a s)

/-! ### Who reads and writes each piece of state -/

/-- Only the listed writers change `cy`, and an instruction outside the listed readers does the same to every other field
whatever `cy` is; its own new `cy`, if it writes one, does not depend on the old one (10_state R22). -/
def Obligations.CarryReadersAndWriters : Prop :=
  (∀ (i : Instr) (s : State), i.writesCarry = false → ∃ t, exec i s = .next t ∧ t.cy = s.cy) ∧
  (∀ (i : Instr) (s : State) (c : Bit), i.readsCarry = false →
    ∃ t t', exec i s = .next t ∧ exec i (s.setCy c) = .next t' ∧ t'.setCy t.cy = t ∧
      (t'.cy = t.cy ∨ (t.cy = s.cy ∧ t'.cy = c))) ∧
  State.reset.cy = 0

/-- "A state element a rule does not name is unchanged by that instruction" (00_scope R9), for `acc` and data memory: an
instruction whose rule does not write `acc` leaves it; only WRM changes main memory and only WR0 to WR3 status memory. -/
def Obligations.AccumulatorAndMemoryWriters : Prop :=
  ∀ (i : Instr) (s : State), ∃ t, exec i s = .next t ∧ (i.writesAcc = false → t.acc = s.acc) ∧
    (i ≠ .wrm → t.dm = s.dm) ∧ (i ≠ .wr0 → i ≠ .wr1 → i ≠ .wr2 → i ≠ .wr3 → t.st = s.st)

/-- The table of register access (10_state R25): an instruction changes no register but the one its row writes, and a
register its row does not read can hold anything without changing the rest of the result. -/
def Obligations.IndexRegisterAccess : Prop :=
  ∀ (i : Instr) (s : State), ∃ t, exec i s = .next t ∧
    (∀ q, i.writesReg ≠ some q → reg q t = reg q s) ∧
    (∀ q v, i.readsReg ≠ some q →
      exec i (setReg q v s) = .next (if i.writesReg = some q then t else setReg q v t))

/-- "The odd slot `x[2p+1]` is neither read nor written by FIM, SRC, FIN or JIN", and no register but the pair's even slot
is written; the pair is `b1[3:1]` and its even slot the pair selector times 2 (41_registers_addressing R160). -/
def Obligations.PairInstructionsUseEvenSlot : Prop :=
  (∀ (b1 b2 : Byte) (p : BitVec 3), (∃ d, decodeBytes b1 b2 = .fim p d) ∨ decodeBytes b1 b2 = .src p ∨
    decodeBytes b1 b2 = .fin p ∨ decodeBytes b1 b2 = .jin p → p = b1.extractLsb' 1 3) ∧
  ∀ (p : BitVec 3) (d : Byte) (s : State) (i : Instr), (i = .fim p d ∨ i = .src p ∨ i = .fin p ∨ i = .jin p) →
    (evenSlot p).toNat = 2 * p.toNat ∧
    ∃ t, exec i s = .next t ∧ (∀ q, q ≠ evenSlot p → reg q t = reg q s) ∧
      ∀ v, exec i (setReg (evenSlot p + 1) v s) = .next (setReg (evenSlot p + 1) v t)

/-- `cc` is written by DCL only and read by no instruction; the host reads it; it is 0 after construction (10_state R29). DCL
copies the whole accumulator, so every value is writable (43_memory_io R225; the value is the spec's decision D19). -/
def Obligations.CommandControlAccess : Prop :=
  (∀ (i : Instr) (s : State), i ≠ .dcl →
    ∃ t, exec i s = .next t ∧ t.cc = s.cc ∧ ∀ v, exec i (s.setCc v) = .next (t.setCc v)) ∧
  (∀ s : State, exec .dcl s = .next { s with cc := s.acc, pc := s.pc + 1 }) ∧
  (∀ (s : State) (w : Nibble), exec .dcl (s.setCc w) = exec .dcl s) ∧
  (∀ s : State, hostRead .cc s = s.cc.toNat) ∧ State.reset.cc = 0

/-- The selector persists until the next SRC or JIN: no other instruction, no memory access among them, changes it
(10_state R32). -/
def Obligations.SelectorPersists : Prop :=
  ∀ (i : Instr) (s : State), (∀ p, i ≠ .src p ∧ i ≠ .jin p) → ∃ t, exec i s = .next t ∧ t.sel = s.sel

/-- No instruction but JMS and BBL reads or writes the call stack (10_state R33, 42_control_transfer R198). -/
def Obligations.StackOnlyJmsBbl : Prop :=
  ∀ (i : Instr) (s : State), (∀ a, i ≠ .jms a) → (∀ d, i ≠ .bbl d) →
    ∃ t, exec i s = .next t ∧ t.stack = s.stack ∧ t.sp = s.sp ∧
      ∀ v n, exec i ((s.setStack v).setSp n) = .next ((t.setStack v).setSp n)

/-- No instruction writes program memory, and WPM is a no-operation (20_memory R63). -/
def Obligations.ProgramMemoryNeverWritten : Prop :=
  (∀ (i : Instr) (s : State), ∃ t, exec i s = .next t ∧ t.pm = s.pm) ∧
  ∀ s : State, exec .wpm s = .next { s with pc := s.pc + 1 }

/-- Ports (20_memory section 3, 43_memory_io section 3): WRR and WMP store the accumulator, RDR loads `romport`; no other
instruction writes a port, only RDR reads `romport`, and none reads `dmport`, which the host reads. That RDR reads the port
register, and not a pin, is the spec's decision D31 and log entry 9. -/
def Obligations.PortAccess : Prop :=
  (∀ s : State, exec .wrr s = .next { s with romport := s.acc, pc := s.pc + 1 }) ∧
  (∀ s : State, exec .wmp s = .next { s with dmport := s.acc, pc := s.pc + 1 }) ∧
  (∀ s : State, exec .rdr s = .next { s with acc := s.romport, pc := s.pc + 1 }) ∧
  (∀ (i : Instr) (s : State), i ≠ .wmp → ∃ t, exec i s = .next t ∧ t.dmport = s.dmport ∧
    ∀ v, exec i (s.setDmport v) = .next (t.setDmport v)) ∧
  (∀ (i : Instr) (s : State), i ≠ .wrr → ∃ t, exec i s = .next t ∧ t.romport = s.romport ∧
    (i ≠ .rdr → ∀ v, exec i (s.setRomport v) = .next (t.setRomport v))) ∧
  ∀ s : State, hostRead .dmport s = s.dmport.toNat

/-- TEST is read only by JCN's signal test: any other instruction does the same whatever the coming draws are, and uses none up
(10_state R44). The draw counter is the model's own field (log entry 4). -/
def Obligations.TestInputOnlyInJcn : Prop :=
  ∀ (i : Instr) (s : State), (∀ c a, i = .jcn c a → jcnSamplesTest c = false) →
    ∃ t, exec i s = .next t ∧ t.testDraws = s.testDraws ∧ ∀ k, exec i (s.setTestDraws k) = .next (t.setTestDraws k)

/-! ### Accumulator instructions -/

/-- ADD r and ADM (40_alu R121, R123), apart from their encodings: `acc + m + cy`, masked, and `cy` iff it exceeds 15; `m` is
`x[r]` or `dm[sel]`. -/
def Obligations.AddAndAdm : Prop :=
  ∀ s : State,
    (∀ r : Nibble, ∃ t, exec (.add r) s = .next t ∧
      t.acc.toNat = (s.acc.toNat + (reg r s).toNat + s.cy.toNat) % 16 ∧
      t.cy.toNat = (if s.acc.toNat + (reg r s).toNat + s.cy.toNat > 15 then 1 else 0) ∧
      t = { s with acc := t.acc, cy := t.cy, pc := s.pc + 1 }) ∧
    (∃ t, exec .adm s = .next t ∧
      t.acc.toNat = (s.acc.toNat + (s.dm.read s.sel.toNat).toNat + s.cy.toNat) % 16 ∧
      t.cy.toNat = (if s.acc.toNat + (s.dm.read s.sel.toNat).toNat + s.cy.toNat > 15 then 1 else 0) ∧
      t = { s with acc := t.acc, cy := t.cy, pc := s.pc + 1 })

/-- SUB r and SBM (40_alu R122, R124), apart from their encodings: `acc - m - (1 - cy)`, masked, and `cy` iff it is negative. -/
def Obligations.SubAndSbm : Prop :=
  ∀ s : State,
    (∀ r : Nibble, ∃ t, exec (.sub r) s = .next t ∧
      (t.acc.toNat : Int) = ((s.acc.toNat : Int) - (reg r s).toNat - (1 - s.cy.toNat)) % 16 ∧
      t.cy.toNat = (if (s.acc.toNat : Int) - (reg r s).toNat - (1 - s.cy.toNat) < 0 then 1 else 0) ∧
      t = { s with acc := t.acc, cy := t.cy, pc := s.pc + 1 }) ∧
    (∃ t, exec .sbm s = .next t ∧
      (t.acc.toNat : Int) = ((s.acc.toNat : Int) - (s.dm.read s.sel.toNat).toNat - (1 - s.cy.toNat)) % 16 ∧
      t.cy.toNat = (if (s.acc.toNat : Int) - (s.dm.read s.sel.toNat).toNat - (1 - s.cy.toNat) < 0 then 1 else 0) ∧
      t = { s with acc := t.acc, cy := t.cy, pc := s.pc + 1 })

/-- IAC and DAC (40_alu R125, R126), apart from their encodings: DAC sets the carry on no borrow. -/
def Obligations.IncrementAndDecrement : Prop :=
  ∀ s : State,
    (∃ t, exec .iac s = .next t ∧ t.acc.toNat = (s.acc.toNat + 1) % 16 ∧
      t.cy.toNat = (if s.acc.toNat + 1 > 15 then 1 else 0) ∧
      t = { s with acc := t.acc, cy := t.cy, pc := s.pc + 1 }) ∧
    (∃ t, exec .dac s = .next t ∧ (t.acc.toNat : Int) = ((s.acc.toNat : Int) - 1) % 16 ∧
      t.cy.toNat = (if s.acc.toNat = 0 then 0 else 1) ∧
      t = { s with acc := t.acc, cy := t.cy, pc := s.pc + 1 })

/-- RAL and RAR (40_alu R127, R128), apart from their encodings. -/
def Obligations.Rotates : Prop :=
  ∀ s : State,
    (∃ t, exec .ral s = .next t ∧ t.acc.toNat = (s.acc.toNat * 2 + s.cy.toNat) % 16 ∧
      t.cy.toNat = s.acc.toNat / 8 ∧ t = { s with acc := t.acc, cy := t.cy, pc := s.pc + 1 }) ∧
    (∃ t, exec .rar s = .next t ∧ t.acc.toNat = s.acc.toNat / 2 + 8 * s.cy.toNat ∧
      t.cy.toNat = s.acc.toNat % 2 ∧ t = { s with acc := t.acc, cy := t.cy, pc := s.pc + 1 })

/-- RAL then RAR, or RAR then RAL, restores `acc` and `cy` and every other field but `pc` (40_alu R128). -/
def Obligations.RotateRoundTrip : Prop :=
  ∀ s : State,
    (∃ t, exec .ral s = .next t ∧ exec .rar t = .next { s with pc := s.pc + 2 }) ∧
    (∃ t, exec .rar s = .next t ∧ exec .ral t = .next { s with pc := s.pc + 2 })

/-- CMA, CLB, TCC and TCS (40_alu R129 to R132), apart from their encodings. -/
def Obligations.ComplementClearTransfer : Prop :=
  ∀ s : State,
    (∃ t, exec .cma s = .next t ∧ t.acc.toNat = 15 - s.acc.toNat ∧ t = { s with acc := t.acc, pc := s.pc + 1 }) ∧
    exec .clb s = .next { s with acc := 0, cy := 0, pc := s.pc + 1 } ∧
    exec .tcc s = .next { s with acc := if s.cy = 1 then 1 else 0, cy := 0, pc := s.pc + 1 } ∧
    exec .tcs s = .next { s with acc := if s.cy = 1 then 10 else 9, cy := 0, pc := s.pc + 1 }

/-- DAA (40_alu R133); that an adjustment clears a set carry where it does not overflow is the spec's decision D21. -/
def Obligations.DecimalAdjust : Prop :=
  ∀ s : State, ∃ t, exec .daa s = .next t ∧
    (s.cy = 1 ∨ s.acc.toNat > 9 → t.acc.toNat = (s.acc.toNat + 6) % 16 ∧
      t.cy.toNat = if s.acc.toNat + 6 > 15 then 1 else 0) ∧
    (¬(s.cy = 1 ∨ s.acc.toNat > 9) → t.acc = s.acc ∧ t.cy = s.cy) ∧
    t = { s with acc := t.acc, cy := t.cy, pc := s.pc + 1 }

/-- KBP (40_alu R134): a single set bit gives its position from 1, zero gives zero, anything else 15; the carry is unchanged
by the spec's decision D20. -/
def Obligations.KeyboardProcess : Prop :=
  ∀ s : State, ∃ t, exec .kbp s = .next t ∧ t = { s with acc := t.acc, pc := s.pc + 1 } ∧
    (s.acc = 0 → t.acc = 0) ∧ (∀ k : Nat, k < 4 → s.acc.toNat = 2 ^ k → t.acc.toNat = k + 1) ∧
    ((∀ k : Nat, k < 4 → s.acc.toNat ≠ 2 ^ k) → s.acc ≠ 0 → t.acc = 15)

/-- CLC, CMC and STC under both values of `CARRY_OPS` (40_alu R135 to R137; the spec's decision D17). -/
def Obligations.CarryInstructions : Prop :=
  ∀ s : State,
    (s.config.carryOps = .historical →
      exec .clc s = .next { s with cy := 0, pc := s.pc + 1 } ∧
      (∃ t, exec .cmc s = .next t ∧ t.cy.toNat = 1 - s.cy.toNat ∧ t = { s with cy := t.cy, pc := s.pc + 1 }) ∧
      exec .stc s = .next { s with cy := 1, pc := s.pc + 1 }) ∧
    (s.config.carryOps = .nop →
      ∀ i, i = .clc ∨ i = .cmc ∨ i = .stc → exec i s = .next { s with pc := s.pc + 1 })

/-! ### Registers and addressing -/

/-- FIM and FIN (41_registers_addressing R161, R163): the low nibble goes to the even slot (decision D5), FIN reads address
`x[0]` (decision D8). -/
def Obligations.FetchIntoPair : Prop :=
  ∀ (p : BitVec 3) (s : State),
    (∀ d : Byte, ∃ t, exec (.fim p d) s = .next t ∧ (reg (evenSlot p) t).toNat = d.toNat % 16 ∧
      (∀ q, q ≠ evenSlot p → reg q t = reg q s) ∧ t = { s with x := t.x, pc := s.pc + 2 }) ∧
    (∃ t, exec (.fin p) s = .next t ∧
      (reg (evenSlot p) t).toNat = (pmFetch (BitVec.ofNat 12 (reg 0 s).toNat) s).toNat % 16 ∧
      (∀ q, q ≠ evenSlot p → reg q t = reg q s) ∧ t = { s with x := t.x, pc := s.pc + 1 })

/-- SRC for every `SRC_SHIFT` (decision D6), and JIN, which writes the selector's high nibble (decision D7)
(41_registers_addressing R162, R164). -/
def Obligations.SelectorInstructions : Prop :=
  ∀ (p : BitVec 3) (s : State),
    (∃ t, exec (.src p) s = .next t ∧ t.sel.toNat = (reg (evenSlot p) s).toNat / 2 ^ s.config.srcShift ∧
      t = { s with sel := t.sel, pc := s.pc + 1 }) ∧
    (∃ t, exec (.jin p) s = .next t ∧ t.sel.toNat = (reg (evenSlot p) s).toNat * 16 + s.sel.toNat % 16 ∧
      t = { s with sel := t.sel, pc := s.pc + 1 })

/-- XCH r (41_registers_addressing R165), apart from its encoding. -/
def Obligations.Exchange : Prop :=
  ∀ (r : Nibble) (s : State), ∃ t, exec (.xch r) s = .next t ∧ t.acc = reg r s ∧ reg r t = s.acc ∧
    (∀ q, q ≠ r → reg q t = reg q s) ∧ t = { s with acc := t.acc, x := t.x, pc := s.pc + 1 }

/-- LD r and LDM d (41_registers_addressing R168, R169; included by the spec's decision D16). -/
def Obligations.AccumulatorLoads : Prop :=
  ∀ s : State,
    (∀ r : Nibble, exec (.ld r) s = .next { s with acc := reg r s, pc := s.pc + 1 }) ∧
    (∀ d : Nibble, exec (.ldm d) s = .next { s with acc := d, pc := s.pc + 1 })

/-- INC r and ISZ r, a8 (41_registers_addressing R166, R167); the carry is unchanged by decision D20, the branch's page is
decision D11. -/
def Obligations.IncrementRegister : Prop :=
  ∀ (r : Nibble) (s : State),
    (∃ t, exec (.inc r) s = .next t ∧ (reg r t).toNat = ((reg r s).toNat + 1) % 16 ∧
      (∀ q, q ≠ r → reg q t = reg q s) ∧ t = { s with x := t.x, pc := s.pc + 1 }) ∧
    (∀ a : Byte, ∃ t, exec (.isz r a) s = .next t ∧ (reg r t).toNat = ((reg r s).toNat + 1) % 16 ∧
      (∀ q, q ≠ r → reg q t = reg q s) ∧ t = { s with x := t.x, pc := t.pc } ∧
      t.pc.toNat = if (reg r s).toNat = 15 then (s.pc.toNat + 2) % 4096
        else (s.pc.toNat + 2) % 4096 / 256 * 256 + a.toNat)

/-! ### Control transfer and the stack -/

/-- The long target of JUN and JMS (42_control_transfer R190): it is `{b1[3:0], b2}`, that is `highNibble * 256 + lowByte`,
every address is one, whatever `pc` is; a JUN changes nothing but `pc`. -/
def Obligations.LongJump : Prop :=
  (∀ (b1 b2 : Byte) (a : Addr), decodeBytes b1 b2 = .jun a ∨ decodeBytes b1 b2 = .jms a →
    a = b1.extractLsb' 0 4 ++ b2) ∧
  (∀ (h : Nibble) (l : Byte) (s : State), ∃ t, exec (.jun (h ++ l)) s = .next t ∧
    t.pc.toNat = h.toNat * 256 + l.toNat ∧ t = { s with pc := t.pc }) ∧
  (∀ (h : Nibble) (l : Byte) (s : State), ∃ t, exec (.jms (h ++ l)) s = .next t ∧
    t.pc.toNat = h.toNat * 256 + l.toNat) ∧
  ∀ a : Addr, ∃ (h : Nibble) (l : Byte), a = h ++ l

/-- JMS (42_control_transfer R193, 10_state R36): the pushed address is that after the JMS (decision D13); a full stack loses
its oldest entry and the others move down (decision D12). -/
def Obligations.CallPushesReturnAddress : Prop :=
  ∀ (a : Addr) (s : State), ∃ t, exec (.jms a) s = .next t ∧ t.pc = a ∧
    t = { s with pc := t.pc, stack := t.stack, sp := t.sp } ∧
    (∀ h : s.sp.val < 3, t.sp.val = s.sp.val + 1 ∧ t.stack[s.sp.val] = s.pc + 2 ∧
      ∀ i : Fin 3, i.val ≠ s.sp.val → t.stack[i.val] = s.stack[i.val]) ∧
    (s.sp.val = 3 → t.sp.val = 3 ∧ t.stack[0] = s.stack[1] ∧ t.stack[1] = s.stack[2] ∧ t.stack[2] = s.pc + 2)

/-- BBL (42_control_transfer R194, 10_state R37): pops into `pc` with no further advance (decision D14), clears the slot, and
loads `acc`; an empty stack gives `stack[0]` and stays (decision D12). -/
def Obligations.ReturnPopsAndLoads : Prop :=
  ∀ (d : Nibble) (s : State), ∃ t, exec (.bbl d) s = .next t ∧ t.acc = d ∧
    t = { s with pc := t.pc, acc := t.acc, stack := t.stack, sp := t.sp } ∧
    (∀ h : 0 < s.sp.val, t.pc = s.stack[s.sp.val - 1] ∧ t.sp.val = s.sp.val - 1 ∧ t.stack[s.sp.val - 1] = 0 ∧
      ∀ i : Fin 3, i.val ≠ s.sp.val - 1 → t.stack[i.val] = s.stack[i.val]) ∧
    (s.sp.val = 0 → t.pc = s.stack[0] ∧ t.stack = s.stack ∧ t.sp = s.sp)

/-- A call and its return, with room on the stack: `pc` is the address after the JMS, `acc` the returned value, and under
the stack invariant every other field is as before the call (95_test_vectors W6). -/
def Obligations.CallThenReturn : Prop :=
  ∀ (a : Addr) (d : Nibble) (s : State), s.sp.val < 3 → s.stackClear →
    ∃ t, exec (.jms a) s = .next t ∧ exec (.bbl d) t = .next { s with pc := s.pc + 2, acc := d }

/-- Four pushes and four pops from an empty stack (95_test_vectors W3): the first three pops give the last three addresses
in reverse order, the fourth gives 0x000. -/
def Obligations.StackLifoWithSaturation : Prop :=
  ∀ (a b c d : Addr) (s : State), s.sp.val = 0 → s.stackClear →
    let full := push d (push c (push b (push a s)))
    popValue full = d ∧ popValue (popRest full) = c ∧ popValue (popRest (popRest full)) = b ∧
      popValue (popRest (popRest (popRest full))) = 0 ∧ popRest (popRest (popRest (popRest full))) = s

/-- JCN (42_control_transfer R195; decisions D9, D11): taken iff the invert bit is clear and a selected test holds. TEST is the
model's free draw (log entry 4): the statement holds whatever value it has. -/
def Obligations.JumpOnCondition : Prop :=
  ∀ (c : Nibble) (a : Byte) (s : State), ∃ t, exec (.jcn c a) s = .next t ∧
    t = { s with pc := t.pc, testDraws := t.testDraws } ∧
    (c.toNat < 8 ∧ ((c.toNat / 4 % 2 = 1 ∧ s.acc = 0) ∨ (c.toNat / 2 % 2 = 1 ∧ s.cy = 1) ∨
        (c.toNat % 2 = 1 ∧ Config.testInput s.testDraws = 0)) →
      t.pc.toNat = (s.pc.toNat + 2) % 4096 / 256 * 256 + a.toNat) ∧
    (¬(c.toNat < 8 ∧ ((c.toNat / 4 % 2 = 1 ∧ s.acc = 0) ∨ (c.toNat / 2 % 2 = 1 ∧ s.cy = 1) ∨
        (c.toNat % 2 = 1 ∧ Config.testInput s.testDraws = 0))) →
      t.pc.toNat = (s.pc.toNat + 2) % 4096) ∧
    t.testDraws = if c.toNat < 8 ∧ c.toNat % 2 = 1 then s.testDraws + 1 else s.testDraws

/-- NOP with any low nibble (42_control_transfer R196, apart from its encoding) and the unassigned bytes 0xFE and 0xFF
(R197), which are one word, only advance `pc`. -/
def Obligations.NoOperations : Prop :=
  (∀ (f : Nibble) (s : State), exec (.nop f) s = .next { s with pc := s.pc + 1 }) ∧
  (∀ rest : List Byte, decode (0xFE :: rest) = .ok (.unassigned 0, rest) ∧ decode (0xFF :: rest) = .ok (.unassigned 1, rest)) ∧
  ∀ (f : Bit) (s : State), exec (.unassigned f) s = .next { s with pc := s.pc + 1 }

/-! ### Data memory, ports and the command line -/

/-- WRM and RDM (43_memory_io R211, R212), apart from their encodings: WRM stores `acc` at index `sel` and leaves every other
character; RDM loads `dm[sel]`. -/
def Obligations.MainMemoryAccess : Prop :=
  ∀ s : State, s.wf →
    (∃ t, exec .wrm s = .next t ∧ memRead s.sel.toNat t = s.acc ∧
      (∀ i, i ≠ s.sel.toNat → memRead i t = memRead i s) ∧ t = { s with dm := t.dm, pc := s.pc + 1 }) ∧
    exec .rdm s = .next { s with acc := memRead s.sel.toNat s, pc := s.pc + 1 }

/-- WR0 to WR3 (20_memory R65; 43_memory_io R213 to R216), apart from their encodings: `acc` goes to index `sel[5:4] * 4 + n`
and every other status character stays. -/
def Obligations.StatusWrites : Prop :=
  ∀ s : State, s.wf → ∀ (n : Nat) (i : Instr),
    ((n = 0 ∧ i = .wr0) ∨ (n = 1 ∧ i = .wr1) ∨ (n = 2 ∧ i = .wr2) ∨ (n = 3 ∧ i = .wr3)) →
    ∃ t, exec i s = .next t ∧ statRead (s.sel.toNat / 16 % 4 * 4 + n) t = s.acc ∧
      (∀ j, j ≠ s.sel.toNat / 16 % 4 * 4 + n → statRead j t = statRead j s) ∧
      t = { s with st := t.st, pc := s.pc + 1 }

/-- RD0 to RD3 (20_memory R65; 43_memory_io R217 to R220), apart from their encodings. -/
def Obligations.StatusReads : Prop :=
  ∀ (s : State) (n : Nat) (i : Instr),
    ((n = 0 ∧ i = .rd0) ∨ (n = 1 ∧ i = .rd1) ∨ (n = 2 ∧ i = .rd2) ∨ (n = 3 ∧ i = .rd3)) →
    exec i s = .next { s with acc := s.st.read (s.sel.toNat / 16 % 4 * 4 + n), pc := s.pc + 1 }

/-- `PmFetch` (20_memory R62): the stored byte below `PM_SIZE`, 0x00 from there on. -/
def Obligations.ProgramFetch : Prop :=
  ∀ (a : Addr) (s : State), (a.toNat < s.config.pmSize → pmFetch a s = s.pm.read a.toNat) ∧
    (s.config.pmSize ≤ a.toNat → pmFetch a s = 0)

/-- `MemRead`, `MemWrite`, `StatRead` and `StatWrite` (20_memory R66, R67): inside the array a write stores, and keeps the
other cells; outside a read gives 0 and a write raises DecodeBug; no instruction reaches that. -/
def Obligations.DataArrayBounds : Prop :=
  (∀ (s : State) (v : Nibble), s.wf →
    (∀ i, i < 256 → ∃ t, memWrite i v s = .next t ∧ memRead i t = v ∧ (∀ k, k ≠ i → memRead k t = memRead k s) ∧
      t = { s with dm := t.dm }) ∧
    (∀ j, j < 16 → ∃ t, statWrite j v s = .next t ∧ statRead j t = v ∧ (∀ k, k ≠ j → statRead k t = statRead k s) ∧
      t = { s with st := t.st })) ∧
  (∀ (s : State) (v : Nibble),
    (∀ i, 256 ≤ i → memRead i s = 0 ∧ memWrite i v s = .fault .decodeBug) ∧
    (∀ j, 16 ≤ j → statRead j s = 0 ∧ statWrite j v s = .fault .decodeBug)) ∧
  ∀ (i : Instr) (s : State) (e : Fault), exec i s ≠ .fault e

/-! ### Invariants -/

/-- Every step keeps `PM_SIZE` in its range and the memories canonical and within their spaces (10_state R39, R41, R42). -/
def Obligations.StepKeepsWellFormed : Prop :=
  ∀ s t : State, s.wf → step s = .next t → t.wf

/-- Every event of the interface, the host's writes and loads among them, keeps them too (20_memory R81, R82). -/
def Obligations.EventsKeepWellFormed : Prop :=
  ∀ (e : Event) (s t : State), s.wf → react e s = .next t → t.wf

/-- Every step keeps the stack invariant: every slot at or above `sp` holds 0x000 (10_state R35). -/
def Obligations.StepKeepsStackClear : Prop :=
  ∀ s t : State, s.stackClear → step s = .next t → t.stackClear

/-- Both invariants hold after construction. -/
def Obligations.ResetMeetsInvariants : Prop := State.reset.wf ∧ State.reset.stackClear

/-- The parameters are fixed for a run: no event changes them (10_state R45). They are the model's own field (log entry 1). -/
def Obligations.ParametersFixed : Prop :=
  ∀ (e : Event) (s t : State), react e s = .next t → t.config = s.config

/-! ### Construction, reset and the host -/

/-- The construction state, element by element (70_reset R260). -/
def Obligations.ConstructionState : Prop :=
  State.reset.pc = 0 ∧ State.reset.acc = 0 ∧ State.reset.cy = 0 ∧ (∀ r, reg r State.reset = 0) ∧ State.reset.cc = 0 ∧
  (∀ i : Fin 3, State.reset.stack[i.val] = 0) ∧ State.reset.sp = 0 ∧ State.reset.sel = 0 ∧
  (∀ a, pmFetch a State.reset = 0) ∧ State.reset.romport = 0 ∧ (∀ i, memRead i State.reset = 0) ∧
  (∀ j, statRead j State.reset = 0) ∧ State.reset.dmport = 0

/-- The reset input restores every construction value and keeps program memory (70_reset R261; the spec's decision D26). That
the parameters and the TEST draws go on is the model's choice (log entry 7). -/
def Obligations.ResetInputKeepsProgram : Prop :=
  ∀ s : State, ∃ t, react .resetIn s = .next t ∧ (∀ a, pmFetch a t = pmFetch a s) ∧
    t = { State.reset with pm := s.pm, config := s.config, testDraws := s.testDraws }

/-- Loading an image (20_memory R80, R81): byte `k` goes to `pm[k]` for `k` below the image's length and `PM_SIZE`; every other
byte and every other element stays. -/
def Obligations.LoadCopiesImage : Prop :=
  ∀ (image : List Byte) (s : State), s.wf →
    ∃ t, react (.load image) s = .next t ∧ t = { s with pm := t.pm } ∧
      ∀ a : Addr, pmFetch a t =
        if h : a.toNat < image.length ∧ a.toNat < s.config.pmSize then image[a.toNat]'h.1 else pmFetch a s

/-- A host write of a value in range replaces that element and no other; a value out of range is refused, not masked
(20_memory R82, R83; the spec's decision D1). A program-memory address without a cell is refused too (log entry 8). -/
def Obligations.HostWriteReplacesOrRefuses : Prop :=
  ∀ (e : Element) (v : Nat) (s : State), s.wf →
    (elementRange e ≤ v → react (.write e v) s = .refused .hostValueOutOfRange) ∧
    (v < elementRange e → (∀ a, e = .pm a → a.toNat < s.config.pmSize) →
      ∃ t, react (.write e v) s = .next t ∧ hostRead e t = v ∧ ∀ e', e' ≠ e → hostRead e' t = hostRead e' s) ∧
    (v < elementRange e → ∀ a, e = .pm a → s.config.pmSize ≤ a.toNat →
      react (.write e v) s = .refused .hostNoSuchCell)

/-! ### The run -/

/-- The end of a run (70_reset R269): the instruction at `pc` is `JUN pc` exactly where the two bytes there are
`0x40 | pc[11:8]` and `pc[7:0]`, and every later step leaves the state unchanged. -/
def Obligations.JumpToSelfIsFixedPoint : Prop :=
  (∀ s : State, s.atEnd ↔
    pmFetch s.pc s = 0x40 ||| (s.pc.extractLsb' 8 4).setWidth 8 ∧ pmFetch (s.pc + 1) s = s.pc.extractLsb' 0 8) ∧
  ∀ (s : State) (k : Nat), s.atEnd → runSteps k s = .next s

/-- Beyond `PM_SIZE` the machine executes NOPs until `pc` wraps to 0x000 (42_control_transfer R199). -/
def Obligations.RunsNopsBeyondProgramMemory : Prop :=
  ∀ (k : Nat) (s : State), s.config.pmSize ≤ s.pc.toNat → s.pc.toNat + k ≤ 4096 →
    runSteps k s = .next { s with pc := s.pc + BitVec.ofNat 12 k }

/-! ### Transactions -/

/-- No step makes more than three fetches, one data-memory access or one port access (20_memory section 7). That the list
counted here is all a step reads and writes is `Obligations.TransactionsAccountForMemory`. -/
def Obligations.TransactionBounds : Prop :=
  ∀ s : State, (stepAccesses s).countP Access.isPmFetch ≤ 3 ∧ (stepAccesses s).countP Access.isData ≤ 1 ∧
    (stepAccesses s).countP Access.isPort ≤ 1

/-- The transaction list is the whole of what a step does with the units outside the CORE (20_memory sections 4, 6 and 7).
Every read of the list carries the value of the cell it names. Replaying its writes gives the memories, the ports and the
TEST draws after the step. A state that agrees on the CORE and holds the values the list reads, whatever its other cells
hold, makes the same transactions and agrees on the CORE after the step. -/
def Obligations.TransactionsAccountForMemory : Prop :=
  ∀ s : State, (∀ x ∈ stepAccesses s, x.carries s = true) ∧
    ∃ t, step s = .next t ∧
      (let r := (stepAccesses s).foldl (fun u x => x.apply u) s
       t.pm = r.pm ∧ t.dm = r.dm ∧ t.st = r.st ∧ t.romport = r.romport ∧ t.dmport = r.dmport ∧ t.testDraws = r.testDraws) ∧
      ∀ u : State, u.sameCore s → (∀ x ∈ stepAccesses s, x.carries u = true) →
        stepAccesses u = stepAccesses s ∧ ∃ t', step u = .next t' ∧ t'.sameCore t

/-! ### The assembler syntax -/

/-- A line and its instruction determine each other, and a line with an operand out of range is refused (30_encoding R104;
the spec's decision D30). -/
def Obligations.AssemblyRoundTrip : Prop :=
  (∀ (l : SourceLine) (i : Instr), assembleLine l = some i ↔ sourceLine i = some l) ∧
  ∀ l : SourceLine, l.wellFormed = false → assembleLine l = none
end

