-- ==== Sys2Proof/Laws/Decode.lean ====
section
/-! SUPPORT. The fields of a byte that is put together from fields, and a byte put together from its fields. -/

namespace Sys2Proof

@[simp] theorem opr_append (h l : Nibble) : opr (h ++ l) = h := by decide +revert

@[simp] theorem opa_append (h l : Nibble) : opa (h ++ l) = l := by decide +revert

@[simp] theorem opr_append_pair (h : Nibble) (p : BitVec 3) (s : Bit) : opr (h ++ p ++ s) = h := by decide +revert

@[simp] theorem pairField_append (h : Nibble) (p : BitVec 3) (s : Bit) : pairField (h ++ p ++ s) = p := by decide +revert

@[simp] theorem siblingBit_append (h : Nibble) (p : BitVec 3) (s : Bit) : siblingBit (h ++ p ++ s) = s := by decide +revert

/-- A byte is its two nibbles (30_encoding R92). -/
theorem opr_append_opa (b : Byte) : opr b ++ opa b = b := by decide +revert

/-- A byte is its high nibble, its pair field and its sibling bit (R93). -/
theorem opr_append_pair_sibling (b : Byte) : opr b ++ pairField b ++ siblingBit b = b := by decide +revert

/-- A 12-bit target is `{a[11:8], a[7:0]}` (R99). -/
theorem target_append (a : Addr) : a.extractLsb' 8 4 ++ a.extractLsb' 0 8 = a := by
  apply BitVec.eq_of_toNat_eq
  have := a.isLt
  rw [BitVec.toNat_append]
  simp only [BitVec.extractLsb'_toNat, Nat.shiftRight_eq_div_pow, Nat.shiftLeft_eq]
  rw [← Nat.shiftLeft_eq, ← Nat.shiftLeft_add_eq_or_of_lt (by omega), Nat.shiftLeft_eq]
  omega

theorem extract_append_high (h : Nibble) (l : Byte) : (h ++ l : Addr).extractLsb' 8 4 = h := by
  apply BitVec.eq_of_toNat_eq
  have := l.isLt
  have := h.isLt
  rw [BitVec.extractLsb'_toNat, BitVec.toNat_append, ← Nat.shiftLeft_add_eq_or_of_lt l.isLt, Nat.shiftLeft_eq,
    Nat.shiftRight_eq_div_pow]
  omega

theorem extract_append_low (h : Nibble) (l : Byte) : (h ++ l : Addr).extractLsb' 0 8 = l := by
  apply BitVec.eq_of_toNat_eq
  have := l.isLt
  rw [BitVec.extractLsb'_toNat, BitVec.toNat_append, ← Nat.shiftLeft_add_eq_or_of_lt l.isLt, Nat.shiftLeft_eq,
    Nat.shiftRight_eq_div_pow]
  omega

/-- The value of a nibble followed by a byte (R99: `highNibble * 256 + lowByte`). -/
theorem append_toNat (h : Nibble) (l : Byte) : (h ++ l : Addr).toNat = h.toNat * 256 + l.toNat := by
  rw [BitVec.toNat_append, ← Nat.shiftLeft_add_eq_or_of_lt l.isLt, Nat.shiftLeft_eq]

/-- Decoding a one-word first byte. -/
theorem decode_oneWord {b1 : Byte} (rest : List Byte) (h : isTwoWord b1 = false) :
    decode (b1 :: rest) = .ok (decodeBytes b1 0, rest) := by
  simp [decode, h]

/-- Decoding a two-word first byte and its operand byte. -/
theorem decode_twoWord {b1 : Byte} (b2 : Byte) (rest : List Byte) (h : isTwoWord b1 = true) :
    decode (b1 :: b2 :: rest) = .ok (decodeBytes b1 b2, rest) := by
  simp [decode, h]

/-- A one-word instruction does not depend on the second byte (R91). -/
theorem decodeBytes_oneWord {b1 : Byte} (b2 : Byte) (h : isTwoWord b1 = false) : decodeBytes b1 b2 = decodeBytes b1 0 := by
  unfold isTwoWord at h
  unfold decodeBytes
  generalize (opr b1).toNat = n at h ⊢
  split <;> simp_all

end Sys2Proof
end

