-- ==== Sys2Proof/Laws/Memory.lean ====
section
/-! SUPPORT. The canonical form of a memory: every operation keeps it, and the read-over-write laws. -/

namespace Sys2Proof.Machine

variable {w : Nat}

@[simp] theorem Memory.read_nil (a : Nat) : Memory.read ([] : Memory w) a = 0 := rfl

@[simp] theorem Memory.wfFrom_nil (size lo : Nat) : Memory.wfFrom size lo ([] : Memory w) = true := rfl

@[simp] theorem Memory.wf_nil (size : Nat) : Memory.wf size ([] : Memory w) = true := rfl

theorem Memory.wfFrom_cons {size lo a : Nat} {v : BitVec w} {rest : Memory w} :
    Memory.wfFrom size lo ((a, v) :: rest) = true ↔
      lo ≤ a ∧ a < size ∧ v ≠ 0 ∧ Memory.wfFrom size (a + 1) rest = true := by
  simp [Memory.wfFrom, and_assoc]

/-- A lower start keeps the form. -/
theorem Memory.wfFrom_of_le {size lo lo' : Nat} {m : Memory w} (h : lo' ≤ lo)
    (hm : Memory.wfFrom size lo m = true) : Memory.wfFrom size lo' m = true := by
  match m with
  | [] => rfl
  | (a, v) :: rest =>
    rw [Memory.wfFrom_cons] at hm ⊢
    exact ⟨by omega, hm.2⟩

/-- A larger space keeps the form. -/
theorem Memory.wfFrom_of_size_le {size size' : Nat} (h : size ≤ size') {m : Memory w} {lo : Nat}
    (hm : Memory.wfFrom size lo m = true) : Memory.wfFrom size' lo m = true := by
  induction m generalizing lo with
  | nil => rfl
  | cons cell rest ih =>
    obtain ⟨a, v⟩ := cell
    rw [Memory.wfFrom_cons] at hm ⊢
    exact ⟨hm.1, by omega, hm.2.2.1, ih hm.2.2.2⟩

/-- Below the start of a canonical list nothing is listed. -/
theorem Memory.read_below {size lo : Nat} {m : Memory w} (hm : Memory.wfFrom size lo m = true) {a : Nat} (h : a < lo) :
    Memory.read m a = 0 := by
  induction m generalizing lo with
  | nil => rfl
  | cons cell rest ih =>
    obtain ⟨b, v⟩ := cell
    rw [Memory.wfFrom_cons] at hm
    rw [Memory.read, if_neg (by omega)]
    exact ih hm.2.2.2 (by omega)

/-- From the size of its space on nothing is listed. -/
theorem Memory.read_beyond {size lo : Nat} {m : Memory w} (hm : Memory.wfFrom size lo m = true) {a : Nat} (h : size ≤ a) :
    Memory.read m a = 0 := by
  induction m generalizing lo with
  | nil => rfl
  | cons cell rest ih =>
    obtain ⟨b, v⟩ := cell
    rw [Memory.wfFrom_cons] at hm
    rw [Memory.read, if_neg (by omega)]
    exact ih hm.2.2.2

/-- A write within the space keeps the form, from any start at or below the address. -/
theorem Memory.write_wfFrom {size lo a : Nat} {m : Memory w} (v : BitVec w) (hm : Memory.wfFrom size lo m = true)
    (hlo : lo ≤ a) (ha : a < size) : Memory.wfFrom size lo (Memory.write m a v) = true := by
  induction m generalizing lo with
  | nil =>
    rw [Memory.write]
    split
    · rfl
    · exact Memory.wfFrom_cons.2 ⟨hlo, ha, by assumption, rfl⟩
  | cons cell rest ih =>
    obtain ⟨b, u⟩ := cell
    rw [Memory.wfFrom_cons] at hm
    obtain ⟨h1, h2, h3, h4⟩ := hm
    rw [Memory.write]
    split
    · split
      · exact Memory.wfFrom_cons.2 ⟨h1, h2, h3, h4⟩
      · exact Memory.wfFrom_cons.2 ⟨hlo, ha, by assumption, Memory.wfFrom_cons.2 ⟨by omega, h2, h3, h4⟩⟩
    · split
      · split
        · exact Memory.wfFrom_of_le (by omega) h4
        · exact Memory.wfFrom_cons.2 ⟨hlo, ha, by assumption, Memory.wfFrom_of_le (by omega) h4⟩
      · exact Memory.wfFrom_cons.2 ⟨h1, h2, h3, ih h4 (by omega)⟩

/-- Every memory operation keeps the canonical form: `Memory.write` is the only one. -/
theorem Memory.write_wf {size a : Nat} {m : Memory w} (v : BitVec w) (hm : Memory.wf size m = true) (ha : a < size) :
    Memory.wf size (Memory.write m a v) = true :=
  Memory.write_wfFrom v hm (Nat.zero_le a) ha

/-- A read after a write to the same cell gives the value written. -/
theorem Memory.read_write_same {size lo a : Nat} {m : Memory w} (v : BitVec w) (hm : Memory.wfFrom size lo m = true) :
    Memory.read (Memory.write m a v) a = v := by
  induction m generalizing lo with
  | nil =>
    rw [Memory.write]
    split
    · rename_i hv
      exact hv.symm
    · simp [Memory.read]
  | cons cell rest ih =>
    obtain ⟨b, u⟩ := cell
    rw [Memory.wfFrom_cons] at hm
    obtain ⟨-, -, -, h4⟩ := hm
    rw [Memory.write]
    split
    · split
      · rename_i h hv
        rw [Memory.read, if_neg (by omega), hv]
        exact Memory.read_below h4 (by omega)
      · simp [Memory.read]
    · split
      · split
        · rename_i h hv
          rw [hv]
          exact Memory.read_below h4 (by omega)
        · simp [Memory.read]
      · rename_i h
        rw [Memory.read, if_neg h]
        exact ih h4

/-- A write leaves every other cell alone. -/
theorem Memory.read_write_other {size lo a a' : Nat} {m : Memory w} (v : BitVec w) (hm : Memory.wfFrom size lo m = true)
    (h : a' ≠ a) : Memory.read (Memory.write m a v) a' = Memory.read m a' := by
  induction m generalizing lo with
  | nil =>
    rw [Memory.write]
    split
    · rfl
    · simp [Memory.read, h]
  | cons cell rest ih =>
    obtain ⟨b, u⟩ := cell
    rw [Memory.wfFrom_cons] at hm
    rw [Memory.write]
    split
    · split
      · rfl
      · rw [Memory.read, if_neg h]
    · split
      · rename_i hab
        subst hab
        split
        · rw [Memory.read, if_neg h]
        · rw [Memory.read, if_neg h, Memory.read, if_neg h]
      · rw [Memory.read, Memory.read]
        split
        · rfl
        · exact ih hm.2.2.2

/-- Equal memories are equal data: canonical lists that read alike are equal. -/
theorem Memory.eq_of_read_eq {size lo : Nat} {m m' : Memory w} (hm : Memory.wfFrom size lo m = true)
    (hm' : Memory.wfFrom size lo m' = true) (h : ∀ a, Memory.read m a = Memory.read m' a) : m = m' := by
  induction m generalizing lo m' with
  | nil =>
    match m' with
    | [] => rfl
    | (b, u) :: rest =>
      have := h b
      rw [Memory.wfFrom_cons] at hm'
      simp [Memory.read] at this
      exact absurd this.symm hm'.2.2.1
  | cons cell rest ih =>
    obtain ⟨a, v⟩ := cell
    match m' with
    | [] =>
      have := h a
      rw [Memory.wfFrom_cons] at hm
      simp [Memory.read] at this
      exact absurd this hm.2.2.1
    | (b, u) :: rest' =>
      rw [Memory.wfFrom_cons] at hm hm'
      have hab : a = b := by
        rcases Nat.lt_trichotomy a b with hlt | heq | hgt
        · have := h a
          rw [Memory.read, if_pos rfl, Memory.read, if_neg (by omega), Memory.read_below hm'.2.2.2 (by omega)] at this
          exact absurd this hm.2.2.1
        · exact heq
        · have := h b
          rw [Memory.read, if_neg (by omega), Memory.read_below hm.2.2.2 (by omega), Memory.read, if_pos rfl] at this
          exact absurd this.symm hm'.2.2.1
      subst hab
      have hvu : v = u := by simpa [Memory.read] using h a
      subst hvu
      have hrest : rest = rest' := by
        refine ih hm.2.2.2 hm'.2.2.2 fun c => ?_
        by_cases hc : c = a
        · rw [hc, Memory.read_below hm.2.2.2 (Nat.lt_succ_self a), Memory.read_below hm'.2.2.2 (Nat.lt_succ_self a)]
        · simpa [Memory.read, hc] using h c
      rw [hrest]

end Sys2Proof.Machine
end

