-- ==== Sys2Proof/Laws/State.lean ====
section
/-! SUPPORT. One lemma per field per update of State, and what the readers see of an update: each true by rfl. -/

namespace Sys2Proof.Machine

/-! ### After `setPc` -/

section
variable (v : Addr) (s : State)

@[simp] theorem setPc_pc : (s.setPc v).pc = v := rfl
@[simp] theorem setPc_acc : (s.setPc v).acc = s.acc := rfl
@[simp] theorem setPc_cy : (s.setPc v).cy = s.cy := rfl
@[simp] theorem setPc_x : (s.setPc v).x = s.x := rfl
@[simp] theorem setPc_cc : (s.setPc v).cc = s.cc := rfl
@[simp] theorem setPc_stack : (s.setPc v).stack = s.stack := rfl
@[simp] theorem setPc_sp : (s.setPc v).sp = s.sp := rfl
@[simp] theorem setPc_sel : (s.setPc v).sel = s.sel := rfl
@[simp] theorem setPc_pm : (s.setPc v).pm = s.pm := rfl
@[simp] theorem setPc_romport : (s.setPc v).romport = s.romport := rfl
@[simp] theorem setPc_dm : (s.setPc v).dm = s.dm := rfl
@[simp] theorem setPc_st : (s.setPc v).st = s.st := rfl
@[simp] theorem setPc_dmport : (s.setPc v).dmport = s.dmport := rfl
@[simp] theorem setPc_config : (s.setPc v).config = s.config := rfl
@[simp] theorem setPc_testDraws : (s.setPc v).testDraws = s.testDraws := rfl
@[simp] theorem reg_setPc (r : Nibble) : reg r (s.setPc v) = reg r s := rfl
@[simp] theorem pmFetch_setPc (a : Addr) : pmFetch a (s.setPc v) = pmFetch a s := rfl
@[simp] theorem memRead_setPc (i : Nat) : memRead i (s.setPc v) = memRead i s := rfl
@[simp] theorem statRead_setPc (j : Nat) : statRead j (s.setPc v) = statRead j s := rfl

end

/-! ### After `setAcc` -/

section
variable (v : Nibble) (s : State)

@[simp] theorem setAcc_pc : (s.setAcc v).pc = s.pc := rfl
@[simp] theorem setAcc_acc : (s.setAcc v).acc = v := rfl
@[simp] theorem setAcc_cy : (s.setAcc v).cy = s.cy := rfl
@[simp] theorem setAcc_x : (s.setAcc v).x = s.x := rfl
@[simp] theorem setAcc_cc : (s.setAcc v).cc = s.cc := rfl
@[simp] theorem setAcc_stack : (s.setAcc v).stack = s.stack := rfl
@[simp] theorem setAcc_sp : (s.setAcc v).sp = s.sp := rfl
@[simp] theorem setAcc_sel : (s.setAcc v).sel = s.sel := rfl
@[simp] theorem setAcc_pm : (s.setAcc v).pm = s.pm := rfl
@[simp] theorem setAcc_romport : (s.setAcc v).romport = s.romport := rfl
@[simp] theorem setAcc_dm : (s.setAcc v).dm = s.dm := rfl
@[simp] theorem setAcc_st : (s.setAcc v).st = s.st := rfl
@[simp] theorem setAcc_dmport : (s.setAcc v).dmport = s.dmport := rfl
@[simp] theorem setAcc_config : (s.setAcc v).config = s.config := rfl
@[simp] theorem setAcc_testDraws : (s.setAcc v).testDraws = s.testDraws := rfl
@[simp] theorem reg_setAcc (r : Nibble) : reg r (s.setAcc v) = reg r s := rfl
@[simp] theorem pmFetch_setAcc (a : Addr) : pmFetch a (s.setAcc v) = pmFetch a s := rfl
@[simp] theorem memRead_setAcc (i : Nat) : memRead i (s.setAcc v) = memRead i s := rfl
@[simp] theorem statRead_setAcc (j : Nat) : statRead j (s.setAcc v) = statRead j s := rfl

end

/-! ### After `setCy` -/

section
variable (v : Bit) (s : State)

@[simp] theorem setCy_pc : (s.setCy v).pc = s.pc := rfl
@[simp] theorem setCy_acc : (s.setCy v).acc = s.acc := rfl
@[simp] theorem setCy_cy : (s.setCy v).cy = v := rfl
@[simp] theorem setCy_x : (s.setCy v).x = s.x := rfl
@[simp] theorem setCy_cc : (s.setCy v).cc = s.cc := rfl
@[simp] theorem setCy_stack : (s.setCy v).stack = s.stack := rfl
@[simp] theorem setCy_sp : (s.setCy v).sp = s.sp := rfl
@[simp] theorem setCy_sel : (s.setCy v).sel = s.sel := rfl
@[simp] theorem setCy_pm : (s.setCy v).pm = s.pm := rfl
@[simp] theorem setCy_romport : (s.setCy v).romport = s.romport := rfl
@[simp] theorem setCy_dm : (s.setCy v).dm = s.dm := rfl
@[simp] theorem setCy_st : (s.setCy v).st = s.st := rfl
@[simp] theorem setCy_dmport : (s.setCy v).dmport = s.dmport := rfl
@[simp] theorem setCy_config : (s.setCy v).config = s.config := rfl
@[simp] theorem setCy_testDraws : (s.setCy v).testDraws = s.testDraws := rfl
@[simp] theorem reg_setCy (r : Nibble) : reg r (s.setCy v) = reg r s := rfl
@[simp] theorem pmFetch_setCy (a : Addr) : pmFetch a (s.setCy v) = pmFetch a s := rfl
@[simp] theorem memRead_setCy (i : Nat) : memRead i (s.setCy v) = memRead i s := rfl
@[simp] theorem statRead_setCy (j : Nat) : statRead j (s.setCy v) = statRead j s := rfl

end

/-! ### After `setX` -/

section
variable (v : Vector Nibble 16) (s : State)

@[simp] theorem setX_pc : (s.setX v).pc = s.pc := rfl
@[simp] theorem setX_acc : (s.setX v).acc = s.acc := rfl
@[simp] theorem setX_cy : (s.setX v).cy = s.cy := rfl
@[simp] theorem setX_x : (s.setX v).x = v := rfl
@[simp] theorem setX_cc : (s.setX v).cc = s.cc := rfl
@[simp] theorem setX_stack : (s.setX v).stack = s.stack := rfl
@[simp] theorem setX_sp : (s.setX v).sp = s.sp := rfl
@[simp] theorem setX_sel : (s.setX v).sel = s.sel := rfl
@[simp] theorem setX_pm : (s.setX v).pm = s.pm := rfl
@[simp] theorem setX_romport : (s.setX v).romport = s.romport := rfl
@[simp] theorem setX_dm : (s.setX v).dm = s.dm := rfl
@[simp] theorem setX_st : (s.setX v).st = s.st := rfl
@[simp] theorem setX_dmport : (s.setX v).dmport = s.dmport := rfl
@[simp] theorem setX_config : (s.setX v).config = s.config := rfl
@[simp] theorem setX_testDraws : (s.setX v).testDraws = s.testDraws := rfl
@[simp] theorem pmFetch_setX (a : Addr) : pmFetch a (s.setX v) = pmFetch a s := rfl
@[simp] theorem memRead_setX (i : Nat) : memRead i (s.setX v) = memRead i s := rfl
@[simp] theorem statRead_setX (j : Nat) : statRead j (s.setX v) = statRead j s := rfl

end

/-! ### After `setCc` -/

section
variable (v : Nibble) (s : State)

@[simp] theorem setCc_pc : (s.setCc v).pc = s.pc := rfl
@[simp] theorem setCc_acc : (s.setCc v).acc = s.acc := rfl
@[simp] theorem setCc_cy : (s.setCc v).cy = s.cy := rfl
@[simp] theorem setCc_x : (s.setCc v).x = s.x := rfl
@[simp] theorem setCc_cc : (s.setCc v).cc = v := rfl
@[simp] theorem setCc_stack : (s.setCc v).stack = s.stack := rfl
@[simp] theorem setCc_sp : (s.setCc v).sp = s.sp := rfl
@[simp] theorem setCc_sel : (s.setCc v).sel = s.sel := rfl
@[simp] theorem setCc_pm : (s.setCc v).pm = s.pm := rfl
@[simp] theorem setCc_romport : (s.setCc v).romport = s.romport := rfl
@[simp] theorem setCc_dm : (s.setCc v).dm = s.dm := rfl
@[simp] theorem setCc_st : (s.setCc v).st = s.st := rfl
@[simp] theorem setCc_dmport : (s.setCc v).dmport = s.dmport := rfl
@[simp] theorem setCc_config : (s.setCc v).config = s.config := rfl
@[simp] theorem setCc_testDraws : (s.setCc v).testDraws = s.testDraws := rfl
@[simp] theorem reg_setCc (r : Nibble) : reg r (s.setCc v) = reg r s := rfl
@[simp] theorem pmFetch_setCc (a : Addr) : pmFetch a (s.setCc v) = pmFetch a s := rfl
@[simp] theorem memRead_setCc (i : Nat) : memRead i (s.setCc v) = memRead i s := rfl
@[simp] theorem statRead_setCc (j : Nat) : statRead j (s.setCc v) = statRead j s := rfl

end

/-! ### After `setStack` -/

section
variable (v : Vector Addr 3) (s : State)

@[simp] theorem setStack_pc : (s.setStack v).pc = s.pc := rfl
@[simp] theorem setStack_acc : (s.setStack v).acc = s.acc := rfl
@[simp] theorem setStack_cy : (s.setStack v).cy = s.cy := rfl
@[simp] theorem setStack_x : (s.setStack v).x = s.x := rfl
@[simp] theorem setStack_cc : (s.setStack v).cc = s.cc := rfl
@[simp] theorem setStack_stack : (s.setStack v).stack = v := rfl
@[simp] theorem setStack_sp : (s.setStack v).sp = s.sp := rfl
@[simp] theorem setStack_sel : (s.setStack v).sel = s.sel := rfl
@[simp] theorem setStack_pm : (s.setStack v).pm = s.pm := rfl
@[simp] theorem setStack_romport : (s.setStack v).romport = s.romport := rfl
@[simp] theorem setStack_dm : (s.setStack v).dm = s.dm := rfl
@[simp] theorem setStack_st : (s.setStack v).st = s.st := rfl
@[simp] theorem setStack_dmport : (s.setStack v).dmport = s.dmport := rfl
@[simp] theorem setStack_config : (s.setStack v).config = s.config := rfl
@[simp] theorem setStack_testDraws : (s.setStack v).testDraws = s.testDraws := rfl
@[simp] theorem reg_setStack (r : Nibble) : reg r (s.setStack v) = reg r s := rfl
@[simp] theorem pmFetch_setStack (a : Addr) : pmFetch a (s.setStack v) = pmFetch a s := rfl
@[simp] theorem memRead_setStack (i : Nat) : memRead i (s.setStack v) = memRead i s := rfl
@[simp] theorem statRead_setStack (j : Nat) : statRead j (s.setStack v) = statRead j s := rfl

end

/-! ### After `setSp` -/

section
variable (v : Fin 4) (s : State)

@[simp] theorem setSp_pc : (s.setSp v).pc = s.pc := rfl
@[simp] theorem setSp_acc : (s.setSp v).acc = s.acc := rfl
@[simp] theorem setSp_cy : (s.setSp v).cy = s.cy := rfl
@[simp] theorem setSp_x : (s.setSp v).x = s.x := rfl
@[simp] theorem setSp_cc : (s.setSp v).cc = s.cc := rfl
@[simp] theorem setSp_stack : (s.setSp v).stack = s.stack := rfl
@[simp] theorem setSp_sp : (s.setSp v).sp = v := rfl
@[simp] theorem setSp_sel : (s.setSp v).sel = s.sel := rfl
@[simp] theorem setSp_pm : (s.setSp v).pm = s.pm := rfl
@[simp] theorem setSp_romport : (s.setSp v).romport = s.romport := rfl
@[simp] theorem setSp_dm : (s.setSp v).dm = s.dm := rfl
@[simp] theorem setSp_st : (s.setSp v).st = s.st := rfl
@[simp] theorem setSp_dmport : (s.setSp v).dmport = s.dmport := rfl
@[simp] theorem setSp_config : (s.setSp v).config = s.config := rfl
@[simp] theorem setSp_testDraws : (s.setSp v).testDraws = s.testDraws := rfl
@[simp] theorem reg_setSp (r : Nibble) : reg r (s.setSp v) = reg r s := rfl
@[simp] theorem pmFetch_setSp (a : Addr) : pmFetch a (s.setSp v) = pmFetch a s := rfl
@[simp] theorem memRead_setSp (i : Nat) : memRead i (s.setSp v) = memRead i s := rfl
@[simp] theorem statRead_setSp (j : Nat) : statRead j (s.setSp v) = statRead j s := rfl

end

/-! ### After `setSel` -/

section
variable (v : Byte) (s : State)

@[simp] theorem setSel_pc : (s.setSel v).pc = s.pc := rfl
@[simp] theorem setSel_acc : (s.setSel v).acc = s.acc := rfl
@[simp] theorem setSel_cy : (s.setSel v).cy = s.cy := rfl
@[simp] theorem setSel_x : (s.setSel v).x = s.x := rfl
@[simp] theorem setSel_cc : (s.setSel v).cc = s.cc := rfl
@[simp] theorem setSel_stack : (s.setSel v).stack = s.stack := rfl
@[simp] theorem setSel_sp : (s.setSel v).sp = s.sp := rfl
@[simp] theorem setSel_sel : (s.setSel v).sel = v := rfl
@[simp] theorem setSel_pm : (s.setSel v).pm = s.pm := rfl
@[simp] theorem setSel_romport : (s.setSel v).romport = s.romport := rfl
@[simp] theorem setSel_dm : (s.setSel v).dm = s.dm := rfl
@[simp] theorem setSel_st : (s.setSel v).st = s.st := rfl
@[simp] theorem setSel_dmport : (s.setSel v).dmport = s.dmport := rfl
@[simp] theorem setSel_config : (s.setSel v).config = s.config := rfl
@[simp] theorem setSel_testDraws : (s.setSel v).testDraws = s.testDraws := rfl
@[simp] theorem reg_setSel (r : Nibble) : reg r (s.setSel v) = reg r s := rfl
@[simp] theorem pmFetch_setSel (a : Addr) : pmFetch a (s.setSel v) = pmFetch a s := rfl
@[simp] theorem memRead_setSel (i : Nat) : memRead i (s.setSel v) = memRead i s := rfl
@[simp] theorem statRead_setSel (j : Nat) : statRead j (s.setSel v) = statRead j s := rfl

end

/-! ### After `setPm` -/

section
variable (v : Memory 8) (s : State)

@[simp] theorem setPm_pc : (s.setPm v).pc = s.pc := rfl
@[simp] theorem setPm_acc : (s.setPm v).acc = s.acc := rfl
@[simp] theorem setPm_cy : (s.setPm v).cy = s.cy := rfl
@[simp] theorem setPm_x : (s.setPm v).x = s.x := rfl
@[simp] theorem setPm_cc : (s.setPm v).cc = s.cc := rfl
@[simp] theorem setPm_stack : (s.setPm v).stack = s.stack := rfl
@[simp] theorem setPm_sp : (s.setPm v).sp = s.sp := rfl
@[simp] theorem setPm_sel : (s.setPm v).sel = s.sel := rfl
@[simp] theorem setPm_pm : (s.setPm v).pm = v := rfl
@[simp] theorem setPm_romport : (s.setPm v).romport = s.romport := rfl
@[simp] theorem setPm_dm : (s.setPm v).dm = s.dm := rfl
@[simp] theorem setPm_st : (s.setPm v).st = s.st := rfl
@[simp] theorem setPm_dmport : (s.setPm v).dmport = s.dmport := rfl
@[simp] theorem setPm_config : (s.setPm v).config = s.config := rfl
@[simp] theorem setPm_testDraws : (s.setPm v).testDraws = s.testDraws := rfl
@[simp] theorem reg_setPm (r : Nibble) : reg r (s.setPm v) = reg r s := rfl
@[simp] theorem memRead_setPm (i : Nat) : memRead i (s.setPm v) = memRead i s := rfl
@[simp] theorem statRead_setPm (j : Nat) : statRead j (s.setPm v) = statRead j s := rfl

end

/-! ### After `setRomport` -/

section
variable (v : Nibble) (s : State)

@[simp] theorem setRomport_pc : (s.setRomport v).pc = s.pc := rfl
@[simp] theorem setRomport_acc : (s.setRomport v).acc = s.acc := rfl
@[simp] theorem setRomport_cy : (s.setRomport v).cy = s.cy := rfl
@[simp] theorem setRomport_x : (s.setRomport v).x = s.x := rfl
@[simp] theorem setRomport_cc : (s.setRomport v).cc = s.cc := rfl
@[simp] theorem setRomport_stack : (s.setRomport v).stack = s.stack := rfl
@[simp] theorem setRomport_sp : (s.setRomport v).sp = s.sp := rfl
@[simp] theorem setRomport_sel : (s.setRomport v).sel = s.sel := rfl
@[simp] theorem setRomport_pm : (s.setRomport v).pm = s.pm := rfl
@[simp] theorem setRomport_romport : (s.setRomport v).romport = v := rfl
@[simp] theorem setRomport_dm : (s.setRomport v).dm = s.dm := rfl
@[simp] theorem setRomport_st : (s.setRomport v).st = s.st := rfl
@[simp] theorem setRomport_dmport : (s.setRomport v).dmport = s.dmport := rfl
@[simp] theorem setRomport_config : (s.setRomport v).config = s.config := rfl
@[simp] theorem setRomport_testDraws : (s.setRomport v).testDraws = s.testDraws := rfl
@[simp] theorem reg_setRomport (r : Nibble) : reg r (s.setRomport v) = reg r s := rfl
@[simp] theorem pmFetch_setRomport (a : Addr) : pmFetch a (s.setRomport v) = pmFetch a s := rfl
@[simp] theorem memRead_setRomport (i : Nat) : memRead i (s.setRomport v) = memRead i s := rfl
@[simp] theorem statRead_setRomport (j : Nat) : statRead j (s.setRomport v) = statRead j s := rfl

end

/-! ### After `setDm` -/

section
variable (v : Memory 4) (s : State)

@[simp] theorem setDm_pc : (s.setDm v).pc = s.pc := rfl
@[simp] theorem setDm_acc : (s.setDm v).acc = s.acc := rfl
@[simp] theorem setDm_cy : (s.setDm v).cy = s.cy := rfl
@[simp] theorem setDm_x : (s.setDm v).x = s.x := rfl
@[simp] theorem setDm_cc : (s.setDm v).cc = s.cc := rfl
@[simp] theorem setDm_stack : (s.setDm v).stack = s.stack := rfl
@[simp] theorem setDm_sp : (s.setDm v).sp = s.sp := rfl
@[simp] theorem setDm_sel : (s.setDm v).sel = s.sel := rfl
@[simp] theorem setDm_pm : (s.setDm v).pm = s.pm := rfl
@[simp] theorem setDm_romport : (s.setDm v).romport = s.romport := rfl
@[simp] theorem setDm_dm : (s.setDm v).dm = v := rfl
@[simp] theorem setDm_st : (s.setDm v).st = s.st := rfl
@[simp] theorem setDm_dmport : (s.setDm v).dmport = s.dmport := rfl
@[simp] theorem setDm_config : (s.setDm v).config = s.config := rfl
@[simp] theorem setDm_testDraws : (s.setDm v).testDraws = s.testDraws := rfl
@[simp] theorem reg_setDm (r : Nibble) : reg r (s.setDm v) = reg r s := rfl
@[simp] theorem pmFetch_setDm (a : Addr) : pmFetch a (s.setDm v) = pmFetch a s := rfl
@[simp] theorem statRead_setDm (j : Nat) : statRead j (s.setDm v) = statRead j s := rfl

end

/-! ### After `setSt` -/

section
variable (v : Memory 4) (s : State)

@[simp] theorem setSt_pc : (s.setSt v).pc = s.pc := rfl
@[simp] theorem setSt_acc : (s.setSt v).acc = s.acc := rfl
@[simp] theorem setSt_cy : (s.setSt v).cy = s.cy := rfl
@[simp] theorem setSt_x : (s.setSt v).x = s.x := rfl
@[simp] theorem setSt_cc : (s.setSt v).cc = s.cc := rfl
@[simp] theorem setSt_stack : (s.setSt v).stack = s.stack := rfl
@[simp] theorem setSt_sp : (s.setSt v).sp = s.sp := rfl
@[simp] theorem setSt_sel : (s.setSt v).sel = s.sel := rfl
@[simp] theorem setSt_pm : (s.setSt v).pm = s.pm := rfl
@[simp] theorem setSt_romport : (s.setSt v).romport = s.romport := rfl
@[simp] theorem setSt_dm : (s.setSt v).dm = s.dm := rfl
@[simp] theorem setSt_st : (s.setSt v).st = v := rfl
@[simp] theorem setSt_dmport : (s.setSt v).dmport = s.dmport := rfl
@[simp] theorem setSt_config : (s.setSt v).config = s.config := rfl
@[simp] theorem setSt_testDraws : (s.setSt v).testDraws = s.testDraws := rfl
@[simp] theorem reg_setSt (r : Nibble) : reg r (s.setSt v) = reg r s := rfl
@[simp] theorem pmFetch_setSt (a : Addr) : pmFetch a (s.setSt v) = pmFetch a s := rfl
@[simp] theorem memRead_setSt (i : Nat) : memRead i (s.setSt v) = memRead i s := rfl

end

/-! ### After `setDmport` -/

section
variable (v : Nibble) (s : State)

@[simp] theorem setDmport_pc : (s.setDmport v).pc = s.pc := rfl
@[simp] theorem setDmport_acc : (s.setDmport v).acc = s.acc := rfl
@[simp] theorem setDmport_cy : (s.setDmport v).cy = s.cy := rfl
@[simp] theorem setDmport_x : (s.setDmport v).x = s.x := rfl
@[simp] theorem setDmport_cc : (s.setDmport v).cc = s.cc := rfl
@[simp] theorem setDmport_stack : (s.setDmport v).stack = s.stack := rfl
@[simp] theorem setDmport_sp : (s.setDmport v).sp = s.sp := rfl
@[simp] theorem setDmport_sel : (s.setDmport v).sel = s.sel := rfl
@[simp] theorem setDmport_pm : (s.setDmport v).pm = s.pm := rfl
@[simp] theorem setDmport_romport : (s.setDmport v).romport = s.romport := rfl
@[simp] theorem setDmport_dm : (s.setDmport v).dm = s.dm := rfl
@[simp] theorem setDmport_st : (s.setDmport v).st = s.st := rfl
@[simp] theorem setDmport_dmport : (s.setDmport v).dmport = v := rfl
@[simp] theorem setDmport_config : (s.setDmport v).config = s.config := rfl
@[simp] theorem setDmport_testDraws : (s.setDmport v).testDraws = s.testDraws := rfl
@[simp] theorem reg_setDmport (r : Nibble) : reg r (s.setDmport v) = reg r s := rfl
@[simp] theorem pmFetch_setDmport (a : Addr) : pmFetch a (s.setDmport v) = pmFetch a s := rfl
@[simp] theorem memRead_setDmport (i : Nat) : memRead i (s.setDmport v) = memRead i s := rfl
@[simp] theorem statRead_setDmport (j : Nat) : statRead j (s.setDmport v) = statRead j s := rfl

end

/-! ### After `setConfig` -/

section
variable (v : Config) (s : State)

@[simp] theorem setConfig_pc : (s.setConfig v).pc = s.pc := rfl
@[simp] theorem setConfig_acc : (s.setConfig v).acc = s.acc := rfl
@[simp] theorem setConfig_cy : (s.setConfig v).cy = s.cy := rfl
@[simp] theorem setConfig_x : (s.setConfig v).x = s.x := rfl
@[simp] theorem setConfig_cc : (s.setConfig v).cc = s.cc := rfl
@[simp] theorem setConfig_stack : (s.setConfig v).stack = s.stack := rfl
@[simp] theorem setConfig_sp : (s.setConfig v).sp = s.sp := rfl
@[simp] theorem setConfig_sel : (s.setConfig v).sel = s.sel := rfl
@[simp] theorem setConfig_pm : (s.setConfig v).pm = s.pm := rfl
@[simp] theorem setConfig_romport : (s.setConfig v).romport = s.romport := rfl
@[simp] theorem setConfig_dm : (s.setConfig v).dm = s.dm := rfl
@[simp] theorem setConfig_st : (s.setConfig v).st = s.st := rfl
@[simp] theorem setConfig_dmport : (s.setConfig v).dmport = s.dmport := rfl
@[simp] theorem setConfig_config : (s.setConfig v).config = v := rfl
@[simp] theorem setConfig_testDraws : (s.setConfig v).testDraws = s.testDraws := rfl
@[simp] theorem reg_setConfig (r : Nibble) : reg r (s.setConfig v) = reg r s := rfl
@[simp] theorem memRead_setConfig (i : Nat) : memRead i (s.setConfig v) = memRead i s := rfl
@[simp] theorem statRead_setConfig (j : Nat) : statRead j (s.setConfig v) = statRead j s := rfl

end

/-! ### After `setTestDraws` -/

section
variable (v : Nat) (s : State)

@[simp] theorem setTestDraws_pc : (s.setTestDraws v).pc = s.pc := rfl
@[simp] theorem setTestDraws_acc : (s.setTestDraws v).acc = s.acc := rfl
@[simp] theorem setTestDraws_cy : (s.setTestDraws v).cy = s.cy := rfl
@[simp] theorem setTestDraws_x : (s.setTestDraws v).x = s.x := rfl
@[simp] theorem setTestDraws_cc : (s.setTestDraws v).cc = s.cc := rfl
@[simp] theorem setTestDraws_stack : (s.setTestDraws v).stack = s.stack := rfl
@[simp] theorem setTestDraws_sp : (s.setTestDraws v).sp = s.sp := rfl
@[simp] theorem setTestDraws_sel : (s.setTestDraws v).sel = s.sel := rfl
@[simp] theorem setTestDraws_pm : (s.setTestDraws v).pm = s.pm := rfl
@[simp] theorem setTestDraws_romport : (s.setTestDraws v).romport = s.romport := rfl
@[simp] theorem setTestDraws_dm : (s.setTestDraws v).dm = s.dm := rfl
@[simp] theorem setTestDraws_st : (s.setTestDraws v).st = s.st := rfl
@[simp] theorem setTestDraws_dmport : (s.setTestDraws v).dmport = s.dmport := rfl
@[simp] theorem setTestDraws_config : (s.setTestDraws v).config = s.config := rfl
@[simp] theorem setTestDraws_testDraws : (s.setTestDraws v).testDraws = v := rfl
@[simp] theorem reg_setTestDraws (r : Nibble) : reg r (s.setTestDraws v) = reg r s := rfl
@[simp] theorem pmFetch_setTestDraws (a : Addr) : pmFetch a (s.setTestDraws v) = pmFetch a s := rfl
@[simp] theorem memRead_setTestDraws (i : Nat) : memRead i (s.setTestDraws v) = memRead i s := rfl
@[simp] theorem statRead_setTestDraws (j : Nat) : statRead j (s.setTestDraws v) = statRead j s := rfl

end

/-! ### After `advance` -/

section
variable (n : Nat) (s : State)

@[simp] theorem advance_pc : (advance n s).pc = s.pc + BitVec.ofNat 12 n := rfl
@[simp] theorem advance_acc : (advance n s).acc = s.acc := rfl
@[simp] theorem advance_cy : (advance n s).cy = s.cy := rfl
@[simp] theorem advance_x : (advance n s).x = s.x := rfl
@[simp] theorem advance_cc : (advance n s).cc = s.cc := rfl
@[simp] theorem advance_stack : (advance n s).stack = s.stack := rfl
@[simp] theorem advance_sp : (advance n s).sp = s.sp := rfl
@[simp] theorem advance_sel : (advance n s).sel = s.sel := rfl
@[simp] theorem advance_pm : (advance n s).pm = s.pm := rfl
@[simp] theorem advance_romport : (advance n s).romport = s.romport := rfl
@[simp] theorem advance_dm : (advance n s).dm = s.dm := rfl
@[simp] theorem advance_st : (advance n s).st = s.st := rfl
@[simp] theorem advance_dmport : (advance n s).dmport = s.dmport := rfl
@[simp] theorem advance_config : (advance n s).config = s.config := rfl
@[simp] theorem advance_testDraws : (advance n s).testDraws = s.testDraws := rfl
@[simp] theorem reg_advance (r : Nibble) : reg r (advance n s) = reg r s := rfl
@[simp] theorem pmFetch_advance (a : Addr) : pmFetch a (advance n s) = pmFetch a s := rfl
@[simp] theorem memRead_advance (i : Nat) : memRead i (advance n s) = memRead i s := rfl
@[simp] theorem statRead_advance (j : Nat) : statRead j (advance n s) = statRead j s := rfl

end

end Sys2Proof.Machine
end

