-- ==== Sys2Proof/Laws/Ops.lean ====
section
/-! SUPPORT. One lemma per shared operation, saying everything it can do. -/

namespace Sys2Proof.Machine

/-! ### Registers -/

@[simp] theorem reg_setReg_same (r v : Nibble) (s : State) : reg r (setReg r v s) = v := by
  simp [reg, setReg]

theorem reg_setReg_other {q r : Nibble} (v : Nibble) (s : State) (h : q ≠ r) : reg q (setReg r v s) = reg q s := by
  have : r.toNat ≠ q.toNat := fun e => h (BitVec.eq_of_toNat_eq e.symm)
  simp [reg, setReg, this]

theorem reg_setReg (q r v : Nibble) (s : State) : reg q (setReg r v s) = if q = r then v else reg q s := by
  split
  · subst_vars
    exact reg_setReg_same _ _ _
  · exact reg_setReg_other _ _ ‹_›

/-- The later of two writes to one register stands. -/
theorem setReg_setReg_same (r v w : Nibble) (s : State) : setReg r v (setReg r w s) = setReg r v s := by
  simp [setReg, State.setX]

/-- Writes to two registers commute. -/
theorem setReg_comm {q r : Nibble} (h : q ≠ r) (v w : Nibble) (s : State) :
    setReg q v (setReg r w s) = setReg r w (setReg q v s) := by
  have : r.toNat ≠ q.toNat := fun e => h (BitVec.eq_of_toNat_eq e.symm)
  simp only [setReg, State.setX]
  rw [Vector.set_comm _ _ this]

/-- A register write changes `x` only. -/
theorem setReg_eq (r v : Nibble) (s : State) : setReg r v s = s.setX (setReg r v s).x := rfl

theorem evenSlot_toNat (p : BitVec 3) : (evenSlot p).toNat = 2 * p.toNat := by
  simp only [evenSlot, BitVec.toNat_append]
  simp [Nat.shiftLeft_eq, Nat.mul_comm]

/-! ### Data memory -/

theorem selector_lt (s : State) : s.sel.toNat < dmSize := s.sel.isLt

theorem statBank_lt (s : State) : statBank s < 4 := (s.sel.extractLsb' 4 2).isLt

theorem statIndex_lt {n : Nat} (h : n < 4) (s : State) : statIndex n s < stSize := by
  have := statBank_lt s
  simp only [statIndex, stSize]
  omega

/-- A main-memory write at a selector completes (20_memory R64, R66). -/
theorem memWrite_selector (v : Nibble) (s : State) :
    memWrite s.sel.toNat v s = .next (s.setDm (s.dm.write s.sel.toNat v)) :=
  if_pos (selector_lt s)

/-- A status write at a bank's character completes (20_memory R65, R67). -/
theorem statWrite_index {n : Nat} (h : n < 4) (v : Nibble) (s : State) :
    statWrite (statIndex n s) v s = .next (s.setSt (s.st.write (statIndex n s) v)) :=
  if_pos (statIndex_lt h s)

/-- What a main-memory write can answer. -/
theorem memWrite_cases (i : Nat) (v : Nibble) (s : State) :
    (i < dmSize ∧ memWrite i v s = .next (s.setDm (s.dm.write i v))) ∨
    (dmSize ≤ i ∧ memWrite i v s = .fault .decodeBug) := by
  by_cases h : i < dmSize
  · exact .inl ⟨h, if_pos h⟩
  · exact .inr ⟨Nat.le_of_not_lt h, if_neg h⟩

/-- What a status write can answer. -/
theorem statWrite_cases (j : Nat) (v : Nibble) (s : State) :
    (j < stSize ∧ statWrite j v s = .next (s.setSt (s.st.write j v))) ∨
    (stSize ≤ j ∧ statWrite j v s = .fault .decodeBug) := by
  by_cases h : j < stSize
  · exact .inl ⟨h, if_pos h⟩
  · exact .inr ⟨Nat.le_of_not_lt h, if_neg h⟩

/-- A write at the selector, followed by the end of the instruction. -/
theorem thenDo_memWrite_selector (v : Nibble) (f : State → State) (s : State) :
    thenDo (memWrite s.sel.toNat v s) f = .next (f (s.setDm (s.dm.write s.sel.toNat v))) := by
  rw [memWrite_selector]
  rfl

theorem statusWrite_eq {n : Nat} (h : n < 4) (s : State) :
    statusWrite n s = .next (advance 1 (s.setSt (s.st.write (statIndex n s) s.acc))) := by
  rw [statusWrite, statWrite_index h]
  rfl

/-! ### Call stack -/

theorem pushSlots_of_lt (v : Addr) (stack : Vector Addr 3) {sp : Fin 4} (h : sp.val < 3) :
    pushSlots v stack sp = stack.set sp.val v h :=
  dif_pos h

theorem pushSlots_of_full (v : Addr) (stack : Vector Addr 3) {sp : Fin 4} (h : sp.val = 3) :
    pushSlots v stack sp = #v[stack[1], stack[2], v] :=
  dif_neg (by omega)

/-- A push makes the number of live entries one more, up to 3. -/
theorem pushPointer_val (sp : Fin 4) : (pushPointer sp).val = min (sp.val + 1) 3 := by
  unfold pushPointer
  split
  · show sp.val + 1 = _
    omega
  · omega

theorem popSlots_of_pos (stack : Vector Addr 3) {sp : Fin 4} (h : 0 < sp.val) :
    popSlots stack sp = stack.set (sp.val - 1) 0 :=
  if_neg (by omega)

/-- A pop makes the number of live entries one less, down to 0. -/
theorem popPointer_val (sp : Fin 4) : (popPointer sp).val = sp.val - 1 := by
  unfold popPointer
  split
  · omega
  · rfl

theorem popValue_of_pos {s : State} (h : 0 < s.sp.val) : popValue s = s.stack[s.sp.val - 1] := if_neg (by omega)

theorem popRest_of_empty {s : State} (h : s.sp.val = 0) : popRest s = s := by
  simp [popRest, popSlots, popPointer, h, State.setStack, State.setSp]

theorem popValue_of_empty {s : State} (h : s.sp.val = 0) : popValue s = s.stack[0] := if_pos h

/-! ### The ALU -/

theorem mask4_toNat (t : Int) : (mask4 t).toNat = (t % 16).toNat := by
  simp [mask4]

theorem commonCarry_toNat (t : Int) : (commonCarry t).toNat = if t < 0 ∨ t > 15 then 1 else 0 := by
  unfold commonCarry bitOf
  split <;> simp_all

/-- The common end of an arithmetic instruction changes `acc` and `cy` only. -/
theorem aluWrite_eq (t : Int) (s : State) : aluWrite t s = (s.setAcc (mask4 t)).setCy (commonCarry t) := rfl

/-- A carry instruction's new carry, in both readings of `CARRY_OPS`. -/
theorem carryOpValue_eq (v : Bit) (s : State) :
    carryOpValue v s = if s.config.carryOps = .historical then v else s.cy := by
  unfold carryOpValue
  split <;> simp_all

/-! ### Runs -/

@[simp] theorem runSteps_zero (s : State) : runSteps 0 s = .next s := rfl

/-- A run whose first step answers `t` goes on from `t`. -/
theorem runSteps_succ {s t : State} (k : Nat) (h : step s = .next t) : runSteps (k + 1) s = runSteps k t := by
  simp [runSteps, h]

/-! ### Program memory -/

/-- Storing a program byte keeps every field but `pm`. -/
theorem pmStore_eq (a : Nat) (b : Byte) (s : State) : pmStore a b s = s.setPm (pmStore a b s).pm := by
  unfold pmStore
  split <;> rfl

/-- Storing a program byte keeps the invariant. -/
theorem pmStore_wf {s : State} (a : Nat) (b : Byte) (h : s.wf) : (pmStore a b s).wf := by
  unfold pmStore
  split
  · rename_i ha
    exact ⟨h.1, h.2.1, Memory.write_wf b h.2.2.1 ha, h.2.2.2⟩
  · exact h

end Sys2Proof.Machine
end

