-- ==== Sys2Proof/Laws/Exec.lean ====
section
/-! SUPPORT. One lemma per instruction: the next state `exec` answers, for every state. -/

namespace Sys2Proof.Machine

variable (s : State)

theorem exec_nop (f : Nibble) :
    exec (.nop f) s =
      .next (advance 1 s) :=
  rfl

theorem exec_jcn (c : Nibble) (a : Byte) :
    exec (.jcn c a) s =
      .next ((sampleTest (jcnSamplesTest c) s).setPc
        (if jcnTaken c (testValue s) s then shortTarget a s else s.pc + 2)) :=
  rfl

theorem exec_fim (p : BitVec 3) (d : Byte) :
    exec (.fim p d) s =
      .next (advance 2 (setReg (evenSlot p) (lowNibble d) s)) :=
  rfl

theorem exec_src (p : BitVec 3) :
    exec (.src p) s =
      .next (advance 1 (s.setSel (srcSelector (reg (evenSlot p) s) s))) :=
  rfl

theorem exec_fin (p : BitVec 3) :
    exec (.fin p) s =
      .next (advance 1 (setReg (evenSlot p) (lowNibble (pmFetch (finAddress s) s)) s)) :=
  rfl

theorem exec_jin (p : BitVec 3) :
    exec (.jin p) s =
      .next (advance 1 (s.setSel (withBank (reg (evenSlot p) s) s.sel))) :=
  rfl

theorem exec_jun (a : Addr) :
    exec (.jun a) s =
      .next (s.setPc a) :=
  rfl

theorem exec_jms (a : Addr) :
    exec (.jms a) s =
      .next ((push (s.pc + 2) s).setPc a) :=
  rfl

theorem exec_inc (r : Nibble) :
    exec (.inc r) s =
      .next (advance 1 (setReg r (reg r s + 1) s)) :=
  rfl

theorem exec_isz (r : Nibble) (a : Byte) :
    exec (.isz r a) s =
      .next ((setReg r (reg r s + 1) s).setPc
        (if reg r s + 1 ≠ 0 then shortTarget a s else s.pc + 2)) :=
  rfl

theorem exec_add (r : Nibble) :
    exec (.add r) s =
      .next (advance 1 (aluWrite (addSum (reg r s) s) s)) :=
  rfl

theorem exec_sub (r : Nibble) :
    exec (.sub r) s =
      .next (advance 1 (aluWrite (subDiff (reg r s) s) s)) :=
  rfl

theorem exec_ld (r : Nibble) :
    exec (.ld r) s =
      .next (advance 1 (s.setAcc (reg r s))) :=
  rfl

theorem exec_xch (r : Nibble) :
    exec (.xch r) s =
      .next (advance 1 (setReg r s.acc (s.setAcc (reg r s)))) :=
  rfl

theorem exec_bbl (d : Nibble) :
    exec (.bbl d) s =
      .next (((popRest s).setPc (popValue s)).setAcc d) :=
  rfl

theorem exec_ldm (d : Nibble) :
    exec (.ldm d) s =
      .next (advance 1 (s.setAcc d)) :=
  rfl

theorem exec_wrm :
    exec .wrm s =
      .next (advance 1 (s.setDm (s.dm.write s.sel.toNat s.acc))) :=
  thenDo_memWrite_selector s.acc (advance 1) s

theorem exec_wmp :
    exec .wmp s =
      .next (advance 1 (s.setDmport s.acc)) :=
  rfl

theorem exec_wrr :
    exec .wrr s =
      .next (advance 1 (s.setRomport s.acc)) :=
  rfl

theorem exec_wpm :
    exec .wpm s =
      .next (advance 1 s) :=
  rfl

theorem exec_wr0 :
    exec .wr0 s =
      .next (advance 1 (s.setSt (s.st.write (statIndex 0 s) s.acc))) :=
  statusWrite_eq (by decide) s

theorem exec_wr1 :
    exec .wr1 s =
      .next (advance 1 (s.setSt (s.st.write (statIndex 1 s) s.acc))) :=
  statusWrite_eq (by decide) s

theorem exec_wr2 :
    exec .wr2 s =
      .next (advance 1 (s.setSt (s.st.write (statIndex 2 s) s.acc))) :=
  statusWrite_eq (by decide) s

theorem exec_wr3 :
    exec .wr3 s =
      .next (advance 1 (s.setSt (s.st.write (statIndex 3 s) s.acc))) :=
  statusWrite_eq (by decide) s

theorem exec_sbm :
    exec .sbm s =
      .next (advance 1 (aluWrite (subDiff (memRead s.sel.toNat s) s) s)) :=
  rfl

theorem exec_rdm :
    exec .rdm s =
      .next (advance 1 (s.setAcc (memRead s.sel.toNat s))) :=
  rfl

theorem exec_rdr :
    exec .rdr s =
      .next (advance 1 (s.setAcc s.romport)) :=
  rfl

theorem exec_adm :
    exec .adm s =
      .next (advance 1 (aluWrite (addSum (memRead s.sel.toNat s) s) s)) :=
  rfl

theorem exec_rd0 :
    exec .rd0 s =
      .next (advance 1 (s.setAcc (statRead (statIndex 0 s) s))) :=
  rfl

theorem exec_rd1 :
    exec .rd1 s =
      .next (advance 1 (s.setAcc (statRead (statIndex 1 s) s))) :=
  rfl

theorem exec_rd2 :
    exec .rd2 s =
      .next (advance 1 (s.setAcc (statRead (statIndex 2 s) s))) :=
  rfl

theorem exec_rd3 :
    exec .rd3 s =
      .next (advance 1 (s.setAcc (statRead (statIndex 3 s) s))) :=
  rfl

theorem exec_clb :
    exec .clb s =
      .next (advance 1 ((s.setAcc 0).setCy 0)) :=
  rfl

theorem exec_clc :
    exec .clc s =
      .next (advance 1 (carryOp 0 s)) :=
  rfl

theorem exec_iac :
    exec .iac s =
      .next (advance 1 (aluWrite (s.acc.toNat + 1) s)) :=
  rfl

theorem exec_cmc :
    exec .cmc s =
      .next (advance 1 (carryOp (~~~s.cy) s)) :=
  rfl

theorem exec_cma :
    exec .cma s =
      .next (advance 1 (s.setAcc (mask4 (15 - s.acc.toNat)))) :=
  rfl

theorem exec_ral :
    exec .ral s =
      .next (advance 1 ((s.setAcc (ralAcc s.acc s.cy)).setCy (ralCarry s.acc))) :=
  rfl

theorem exec_rar :
    exec .rar s =
      .next (advance 1 ((s.setAcc (rarAcc s.acc s.cy)).setCy (rarCarry s.acc))) :=
  rfl

theorem exec_tcc :
    exec .tcc s =
      .next (advance 1 ((s.setAcc (if s.cy = 1 then 1 else 0)).setCy 0)) :=
  rfl

theorem exec_dac :
    exec .dac s =
      .next (advance 1 ((s.setAcc (mask4 (s.acc.toNat - 1))).setCy (dacCarry s.acc))) :=
  rfl

theorem exec_tcs :
    exec .tcs s =
      .next (advance 1 ((s.setAcc (if s.cy = 1 then 10 else 9)).setCy 0)) :=
  rfl

theorem exec_stc :
    exec .stc s =
      .next (advance 1 (carryOp 1 s)) :=
  rfl

theorem exec_daa :
    exec .daa s =
      .next (advance 1 ((s.setAcc (daaAcc s)).setCy (daaCarry s))) :=
  rfl

theorem exec_kbp :
    exec .kbp s =
      .next (advance 1 (s.setAcc (kbpTable s.acc))) :=
  rfl

theorem exec_dcl :
    exec .dcl s =
      .next (advance 1 (s.setCc s.acc)) :=
  rfl

theorem exec_unassigned (f : Bit) :
    exec (.unassigned f) s =
      .next (advance 1 s) :=
  rfl

end Sys2Proof.Machine
end

