-- ==== Sys2Proof/Laws/PerInstr.lean ====
section
/-! SUPPORT. Statements about every instruction as syntax, one lemma per constructor. -/

namespace Sys2Proof.Laws.EncodingRow

/-- The instruction's encoding has a first byte that its row of spec/opcode_table.json covers, as many bytes as the row
gives, and as many as `Instr.length` says (30_encoding R91, R102). -/
def Statement (i : Instr) : Prop :=
  ∃ row b1 rest, i.opcodeRow = some row ∧ encode i = b1 :: rest ∧ row.covers b1 = true ∧
    (encode i).length = row.length ∧ row.length = i.length

/-- From a row found by computation to the statement. -/
theorem of_row {i : Instr} (row : OpcodeRow) (b1 : Byte) (rest : List Byte) (h1 : i.opcodeRow = some row)
    (h2 : encode i = b1 :: rest) (h3 : row.covers b1 = true) (h4 : rest.length + 1 = row.length)
    (h5 : row.length = i.length) : Statement i :=
  ⟨row, b1, rest, h1, h2, h3, by rw [h2, List.length_cons, h4], h5⟩

theorem cover_nop : ∀ (f : Nibble), OpcodeRow.covers ⟨"NOP", 0x00, 0xF0, 1⟩ (0x0#4 ++ f) = true := by decide

theorem nop (f : Nibble) : Statement (.nop f) :=
  of_row ⟨"NOP", 0x00, 0xF0, 1⟩ (0x0#4 ++ f) [] rfl rfl (cover_nop f) rfl rfl

theorem cover_jcn : ∀ (c : Nibble), OpcodeRow.covers ⟨"JCN", 0x10, 0xF0, 2⟩ (0x1#4 ++ c) = true := by decide

theorem jcn (c : Nibble) (a : Byte) : Statement (.jcn c a) :=
  of_row ⟨"JCN", 0x10, 0xF0, 2⟩ (0x1#4 ++ c) [a] rfl rfl (cover_jcn c) rfl rfl

theorem cover_fim : ∀ (p : BitVec 3), OpcodeRow.covers ⟨"FIM", 0x20, 0xF1, 2⟩ (0x2#4 ++ p ++ 0#1) = true := by decide

theorem fim (p : BitVec 3) (d : Byte) : Statement (.fim p d) :=
  of_row ⟨"FIM", 0x20, 0xF1, 2⟩ (0x2#4 ++ p ++ 0#1) [d] rfl rfl (cover_fim p) rfl rfl

theorem cover_src : ∀ (p : BitVec 3), OpcodeRow.covers ⟨"SRC", 0x21, 0xF1, 1⟩ (0x2#4 ++ p ++ 1#1) = true := by decide

theorem src (p : BitVec 3) : Statement (.src p) :=
  of_row ⟨"SRC", 0x21, 0xF1, 1⟩ (0x2#4 ++ p ++ 1#1) [] rfl rfl (cover_src p) rfl rfl

theorem cover_fin : ∀ (p : BitVec 3), OpcodeRow.covers ⟨"FIN", 0x30, 0xF1, 1⟩ (0x3#4 ++ p ++ 0#1) = true := by decide

theorem fin (p : BitVec 3) : Statement (.fin p) :=
  of_row ⟨"FIN", 0x30, 0xF1, 1⟩ (0x3#4 ++ p ++ 0#1) [] rfl rfl (cover_fin p) rfl rfl

theorem cover_jin : ∀ (p : BitVec 3), OpcodeRow.covers ⟨"JIN", 0x31, 0xF1, 1⟩ (0x3#4 ++ p ++ 1#1) = true := by decide

theorem jin (p : BitVec 3) : Statement (.jin p) :=
  of_row ⟨"JIN", 0x31, 0xF1, 1⟩ (0x3#4 ++ p ++ 1#1) [] rfl rfl (cover_jin p) rfl rfl

theorem cover_jun (a : Addr) : OpcodeRow.covers ⟨"JUN", 0x40, 0xF0, 2⟩ (0x4#4 ++ a.extractLsb' 8 4) = true :=
  (by decide : ∀ h : Nibble, OpcodeRow.covers ⟨"JUN", 0x40, 0xF0, 2⟩ (0x4#4 ++ h) = true) (a.extractLsb' 8 4)

theorem jun (a : Addr) : Statement (.jun a) :=
  of_row ⟨"JUN", 0x40, 0xF0, 2⟩ (0x4#4 ++ a.extractLsb' 8 4) [a.extractLsb' 0 8] rfl rfl (cover_jun a) rfl rfl

theorem cover_jms (a : Addr) : OpcodeRow.covers ⟨"JMS", 0x50, 0xF0, 2⟩ (0x5#4 ++ a.extractLsb' 8 4) = true :=
  (by decide : ∀ h : Nibble, OpcodeRow.covers ⟨"JMS", 0x50, 0xF0, 2⟩ (0x5#4 ++ h) = true) (a.extractLsb' 8 4)

theorem jms (a : Addr) : Statement (.jms a) :=
  of_row ⟨"JMS", 0x50, 0xF0, 2⟩ (0x5#4 ++ a.extractLsb' 8 4) [a.extractLsb' 0 8] rfl rfl (cover_jms a) rfl rfl

theorem cover_inc : ∀ (r : Nibble), OpcodeRow.covers ⟨"INC", 0x60, 0xF0, 1⟩ (0x6#4 ++ r) = true := by decide

theorem inc (r : Nibble) : Statement (.inc r) :=
  of_row ⟨"INC", 0x60, 0xF0, 1⟩ (0x6#4 ++ r) [] rfl rfl (cover_inc r) rfl rfl

theorem cover_isz : ∀ (r : Nibble), OpcodeRow.covers ⟨"ISZ", 0x70, 0xF0, 2⟩ (0x7#4 ++ r) = true := by decide

theorem isz (r : Nibble) (a : Byte) : Statement (.isz r a) :=
  of_row ⟨"ISZ", 0x70, 0xF0, 2⟩ (0x7#4 ++ r) [a] rfl rfl (cover_isz r) rfl rfl

theorem cover_add : ∀ (r : Nibble), OpcodeRow.covers ⟨"ADD", 0x80, 0xF0, 1⟩ (0x8#4 ++ r) = true := by decide

theorem add (r : Nibble) : Statement (.add r) :=
  of_row ⟨"ADD", 0x80, 0xF0, 1⟩ (0x8#4 ++ r) [] rfl rfl (cover_add r) rfl rfl

theorem cover_sub : ∀ (r : Nibble), OpcodeRow.covers ⟨"SUB", 0x90, 0xF0, 1⟩ (0x9#4 ++ r) = true := by decide

theorem sub (r : Nibble) : Statement (.sub r) :=
  of_row ⟨"SUB", 0x90, 0xF0, 1⟩ (0x9#4 ++ r) [] rfl rfl (cover_sub r) rfl rfl

theorem cover_ld : ∀ (r : Nibble), OpcodeRow.covers ⟨"LD", 0xA0, 0xF0, 1⟩ (0xA#4 ++ r) = true := by decide

theorem ld (r : Nibble) : Statement (.ld r) :=
  of_row ⟨"LD", 0xA0, 0xF0, 1⟩ (0xA#4 ++ r) [] rfl rfl (cover_ld r) rfl rfl

theorem cover_xch : ∀ (r : Nibble), OpcodeRow.covers ⟨"XCH", 0xB0, 0xF0, 1⟩ (0xB#4 ++ r) = true := by decide

theorem xch (r : Nibble) : Statement (.xch r) :=
  of_row ⟨"XCH", 0xB0, 0xF0, 1⟩ (0xB#4 ++ r) [] rfl rfl (cover_xch r) rfl rfl

theorem cover_bbl : ∀ (d : Nibble), OpcodeRow.covers ⟨"BBL", 0xC0, 0xF0, 1⟩ (0xC#4 ++ d) = true := by decide

theorem bbl (d : Nibble) : Statement (.bbl d) :=
  of_row ⟨"BBL", 0xC0, 0xF0, 1⟩ (0xC#4 ++ d) [] rfl rfl (cover_bbl d) rfl rfl

theorem cover_ldm : ∀ (d : Nibble), OpcodeRow.covers ⟨"LDM", 0xD0, 0xF0, 1⟩ (0xD#4 ++ d) = true := by decide

theorem ldm (d : Nibble) : Statement (.ldm d) :=
  of_row ⟨"LDM", 0xD0, 0xF0, 1⟩ (0xD#4 ++ d) [] rfl rfl (cover_ldm d) rfl rfl

theorem wrm : Statement .wrm :=
  of_row ⟨"WRM", 0xE0, 0xFF, 1⟩ (0xE0#8) [] rfl rfl rfl rfl rfl

theorem wmp : Statement .wmp :=
  of_row ⟨"WMP", 0xE1, 0xFF, 1⟩ (0xE1#8) [] rfl rfl rfl rfl rfl

theorem wrr : Statement .wrr :=
  of_row ⟨"WRR", 0xE2, 0xFF, 1⟩ (0xE2#8) [] rfl rfl rfl rfl rfl

theorem wpm : Statement .wpm :=
  of_row ⟨"WPM", 0xE3, 0xFF, 1⟩ (0xE3#8) [] rfl rfl rfl rfl rfl

theorem wr0 : Statement .wr0 :=
  of_row ⟨"WR0", 0xE4, 0xFF, 1⟩ (0xE4#8) [] rfl rfl rfl rfl rfl

theorem wr1 : Statement .wr1 :=
  of_row ⟨"WR1", 0xE5, 0xFF, 1⟩ (0xE5#8) [] rfl rfl rfl rfl rfl

theorem wr2 : Statement .wr2 :=
  of_row ⟨"WR2", 0xE6, 0xFF, 1⟩ (0xE6#8) [] rfl rfl rfl rfl rfl

theorem wr3 : Statement .wr3 :=
  of_row ⟨"WR3", 0xE7, 0xFF, 1⟩ (0xE7#8) [] rfl rfl rfl rfl rfl

theorem sbm : Statement .sbm :=
  of_row ⟨"SBM", 0xE8, 0xFF, 1⟩ (0xE8#8) [] rfl rfl rfl rfl rfl

theorem rdm : Statement .rdm :=
  of_row ⟨"RDM", 0xE9, 0xFF, 1⟩ (0xE9#8) [] rfl rfl rfl rfl rfl

theorem rdr : Statement .rdr :=
  of_row ⟨"RDR", 0xEA, 0xFF, 1⟩ (0xEA#8) [] rfl rfl rfl rfl rfl

theorem adm : Statement .adm :=
  of_row ⟨"ADM", 0xEB, 0xFF, 1⟩ (0xEB#8) [] rfl rfl rfl rfl rfl

theorem rd0 : Statement .rd0 :=
  of_row ⟨"RD0", 0xEC, 0xFF, 1⟩ (0xEC#8) [] rfl rfl rfl rfl rfl

theorem rd1 : Statement .rd1 :=
  of_row ⟨"RD1", 0xED, 0xFF, 1⟩ (0xED#8) [] rfl rfl rfl rfl rfl

theorem rd2 : Statement .rd2 :=
  of_row ⟨"RD2", 0xEE, 0xFF, 1⟩ (0xEE#8) [] rfl rfl rfl rfl rfl

theorem rd3 : Statement .rd3 :=
  of_row ⟨"RD3", 0xEF, 0xFF, 1⟩ (0xEF#8) [] rfl rfl rfl rfl rfl

theorem clb : Statement .clb :=
  of_row ⟨"CLB", 0xF0, 0xFF, 1⟩ (0xF0#8) [] rfl rfl rfl rfl rfl

theorem clc : Statement .clc :=
  of_row ⟨"CLC", 0xF1, 0xFF, 1⟩ (0xF1#8) [] rfl rfl rfl rfl rfl

theorem iac : Statement .iac :=
  of_row ⟨"IAC", 0xF2, 0xFF, 1⟩ (0xF2#8) [] rfl rfl rfl rfl rfl

theorem cmc : Statement .cmc :=
  of_row ⟨"CMC", 0xF3, 0xFF, 1⟩ (0xF3#8) [] rfl rfl rfl rfl rfl

theorem cma : Statement .cma :=
  of_row ⟨"CMA", 0xF4, 0xFF, 1⟩ (0xF4#8) [] rfl rfl rfl rfl rfl

theorem ral : Statement .ral :=
  of_row ⟨"RAL", 0xF5, 0xFF, 1⟩ (0xF5#8) [] rfl rfl rfl rfl rfl

theorem rar : Statement .rar :=
  of_row ⟨"RAR", 0xF6, 0xFF, 1⟩ (0xF6#8) [] rfl rfl rfl rfl rfl

theorem tcc : Statement .tcc :=
  of_row ⟨"TCC", 0xF7, 0xFF, 1⟩ (0xF7#8) [] rfl rfl rfl rfl rfl

theorem dac : Statement .dac :=
  of_row ⟨"DAC", 0xF8, 0xFF, 1⟩ (0xF8#8) [] rfl rfl rfl rfl rfl

theorem tcs : Statement .tcs :=
  of_row ⟨"TCS", 0xF9, 0xFF, 1⟩ (0xF9#8) [] rfl rfl rfl rfl rfl

theorem stc : Statement .stc :=
  of_row ⟨"STC", 0xFA, 0xFF, 1⟩ (0xFA#8) [] rfl rfl rfl rfl rfl

theorem daa : Statement .daa :=
  of_row ⟨"DAA", 0xFB, 0xFF, 1⟩ (0xFB#8) [] rfl rfl rfl rfl rfl

theorem kbp : Statement .kbp :=
  of_row ⟨"KBP", 0xFC, 0xFF, 1⟩ (0xFC#8) [] rfl rfl rfl rfl rfl

theorem dcl : Statement .dcl :=
  of_row ⟨"DCL", 0xFD, 0xFF, 1⟩ (0xFD#8) [] rfl rfl rfl rfl rfl

theorem cover_unassigned : ∀ (f : Bit), OpcodeRow.covers ⟨"UNASSIGNED", 0xFE, 0xFE, 1⟩ (0x7F#7 ++ f) = true := by decide

theorem unassigned (f : Bit) : Statement (.unassigned f) :=
  of_row ⟨"UNASSIGNED", 0xFE, 0xFE, 1⟩ (0x7F#7 ++ f) [] rfl rfl (cover_unassigned f) rfl rfl

end Sys2Proof.Laws.EncodingRow
end

