-- ==== Sys2Proof/Tests/Slice0.lean ====
section
/-! SUPPORT. The model's own tests. Expected results are those of spec/95_test_vectors.md (the vector's id is in the comment)
or of the example in the instruction's rule; words are written out from the opcode table. -/

namespace Sys2Proof.Tests

open Sys2Proof.Machine

/-- The construction state with `acc` and `cy`. -/
def accCy (a : Nibble) (c : Bit) : State := (State.reset.setAcc a).setCy c

/-- A state with bytes placed at `pc`. -/
def placed (pc : Addr) (bytes : List Byte) (s : State) : State := loadFrom pc.toNat bytes (s.setPc pc)

/-- What one step of a state leaves, seen through `view`; none where it does not answer a next state. -/
def after {α : Type} (s : State) (view : State → α) : Option α :=
  match step s with
  | .next t => some (view t)
  | .fault _ => none
  | .refused _ => none

/-- `acc`, `cy` and `pc`. -/
def alu (t : State) : Nibble × Bit × Addr := (t.acc, t.cy, t.pc)

/-- A data-memory state: `sel`, `acc`. -/
def selAcc (sel : Byte) (a : Nibble) : State := (State.reset.setSel sel).setAcc a

/-- `dm[i] = v` before the step. -/
def withDm (i : Nat) (v : Nibble) (s : State) : State := s.setDm (s.dm.write i v)

/-- `st[j] = v` before the step. -/
def withSt (j : Nat) (v : Nibble) (s : State) : State := s.setSt (s.st.write j v)

/-- A stack and its pointer. -/
def withStack (v : Vector Addr 3) (n : Fin 4) (s : State) : State := (s.setStack v).setSp n

/-! ### Well-formedness: an ill-formed term for each check -/

theorem test_wf_every_instr : Instr.wellFormed (.jun 0xFFF) = true := by decide
theorem test_wf_no_bytes : bytesWellFormed [] = false := by decide
theorem test_wf_two_word_cut_short : bytesWellFormed [0x41] = false := by decide
theorem test_wf_one_word_too_long : bytesWellFormed [0x81, 0x00] = false := by decide
theorem test_wf_three_bytes : bytesWellFormed [0x41, 0x23, 0x00] = false := by decide
theorem test_wf_two_word : bytesWellFormed [0x41, 0x23] = true := by decide
theorem test_wf_line_register : (SourceLine.add 16).wellFormed = false := by decide
theorem test_wf_line_pair : (SourceLine.src 8).wellFormed = false := by decide
theorem test_wf_line_pair_byte : (SourceLine.fim 0 256).wellFormed = false ∧ (SourceLine.fim 8 0).wellFormed = false := by decide
theorem test_wf_line_immediate : (SourceLine.ldm 16).wellFormed = false := by decide
theorem test_wf_line_condition : (SourceLine.jcn 16 0).wellFormed = false ∧ (SourceLine.jcn 0 256).wellFormed = false := by decide
theorem test_wf_line_loop : (SourceLine.isz 16 0).wellFormed = false ∧ (SourceLine.isz 0 256).wellFormed = false := by decide
theorem test_wf_line_target : (SourceLine.jun 4096).wellFormed = false := by decide
theorem test_wf_line_plain : (SourceLine.plain (.add 1)).wellFormed = false := by decide
theorem test_wf_line_accepts : (SourceLine.isz 15 255).wellFormed = true := by decide

/-! ### Decoding, a word per constructor (30_encoding R92 to R97) -/

theorem test_decode_nop : decode [0x0F] = .ok (.nop 15, []) := by decide
theorem test_decode_jcn : decode [0x14, 0x08] = .ok (.jcn 4 0x08, []) := by decide
theorem test_decode_fim : decode [0x24, 0x35] = .ok (.fim 2 0x35, []) := by decide
theorem test_decode_src : decode [0x23] = .ok (.src 1, []) := by decide
theorem test_decode_fin : decode [0x32] = .ok (.fin 1, []) := by decide
theorem test_decode_jin : decode [0x37] = .ok (.jin 3, []) := by decide
theorem test_decode_jun : decode [0x41, 0x23] = .ok (.jun 0x123, []) := by decide
theorem test_decode_jms : decode [0x5F, 0xFE] = .ok (.jms 0xFFE, []) := by decide
theorem test_decode_inc : decode [0x64] = .ok (.inc 4, []) := by decide
theorem test_decode_isz : decode [0x72, 0x03] = .ok (.isz 2 0x03, []) := by decide
theorem test_decode_add : decode [0x8F] = .ok (.add 15, []) := by decide
theorem test_decode_sub : decode [0x92] = .ok (.sub 2, []) := by decide
theorem test_decode_ld : decode [0xA2] = .ok (.ld 2, []) := by decide
theorem test_decode_xch : decode [0xB9] = .ok (.xch 9, []) := by decide
theorem test_decode_bbl : decode [0xC5] = .ok (.bbl 5, []) := by decide
theorem test_decode_ldm : decode [0xD7] = .ok (.ldm 7, []) := by decide
theorem test_decode_wrm : decode [0xE0] = .ok (.wrm, []) := by decide
theorem test_decode_wmp : decode [0xE1] = .ok (.wmp, []) := by decide
theorem test_decode_wrr : decode [0xE2] = .ok (.wrr, []) := by decide
theorem test_decode_wpm : decode [0xE3] = .ok (.wpm, []) := by decide
theorem test_decode_wr0 : decode [0xE4] = .ok (.wr0, []) := by decide
theorem test_decode_wr1 : decode [0xE5] = .ok (.wr1, []) := by decide
theorem test_decode_wr2 : decode [0xE6] = .ok (.wr2, []) := by decide
theorem test_decode_wr3 : decode [0xE7] = .ok (.wr3, []) := by decide
theorem test_decode_sbm : decode [0xE8] = .ok (.sbm, []) := by decide
theorem test_decode_rdm : decode [0xE9] = .ok (.rdm, []) := by decide
theorem test_decode_rdr : decode [0xEA] = .ok (.rdr, []) := by decide
theorem test_decode_adm : decode [0xEB] = .ok (.adm, []) := by decide
theorem test_decode_rd0 : decode [0xEC] = .ok (.rd0, []) := by decide
theorem test_decode_rd1 : decode [0xED] = .ok (.rd1, []) := by decide
theorem test_decode_rd2 : decode [0xEE] = .ok (.rd2, []) := by decide
theorem test_decode_rd3 : decode [0xEF] = .ok (.rd3, []) := by decide
theorem test_decode_clb : decode [0xF0] = .ok (.clb, []) := by decide
theorem test_decode_clc : decode [0xF1] = .ok (.clc, []) := by decide
theorem test_decode_iac : decode [0xF2] = .ok (.iac, []) := by decide
theorem test_decode_cmc : decode [0xF3] = .ok (.cmc, []) := by decide
theorem test_decode_cma : decode [0xF4] = .ok (.cma, []) := by decide
theorem test_decode_ral : decode [0xF5] = .ok (.ral, []) := by decide
theorem test_decode_rar : decode [0xF6] = .ok (.rar, []) := by decide
theorem test_decode_tcc : decode [0xF7] = .ok (.tcc, []) := by decide
theorem test_decode_dac : decode [0xF8] = .ok (.dac, []) := by decide
theorem test_decode_tcs : decode [0xF9] = .ok (.tcs, []) := by decide
theorem test_decode_stc : decode [0xFA] = .ok (.stc, []) := by decide
theorem test_decode_daa : decode [0xFB] = .ok (.daa, []) := by decide
theorem test_decode_kbp : decode [0xFC] = .ok (.kbp, []) := by decide
theorem test_decode_dcl : decode [0xFD] = .ok (.dcl, []) := by decide
theorem test_decode_unassigned : decode [0xFF] = .ok (.unassigned 1, []) := by decide

/-- A binary check of the fields: `0010 ppp0 dddddddd` with `p = 101`, `d = 1001 0110`. -/
theorem test_decode_fim_bits : decode [0b00101010, 0b10010110] = .ok (.fim 0b101 0b10010110, []) := by decide
theorem test_decode_refuses_cut_short : decode [0x20] = .error (.noOperandByte 0x20) := by decide
theorem test_decode_rest : decode [0x21, 0xAA] = .ok (.src 0, [0xAA]) := by decide
theorem test_decodeTableWord_jms : decodeTableWord 16 0x2351 = some (.jms 0x123) := by decide
theorem test_decodeTableWord_short : decodeTableWord 8 0x41 = some (.jun 0x100) := by decide

/-- Every first byte selects one row of the table, which is its instruction's (R102). -/
theorem test_table_row : ∀ b1 : Byte, (opcodeTable.filter fun row => row.covers b1).length = 1 := by decide +kernel

/-! ### One step per vector of spec/95_test_vectors.md -/

/-- V-ADD-1. -/
theorem test_add_1 : after (placed 0 [0x81] (setReg 1 8 (accCy 9 1))) alu = some (2, 1, 1) := by decide
/-- V-ADD-2. -/
theorem test_add_wraps : after (placed 0 [0x8F] (setReg 15 15 (accCy 15 1))) alu = some (15, 1, 1) := by decide
/-- V-SUB-1. -/
theorem test_sub_borrow : after (placed 0 [0x92] (setReg 2 5 (accCy 3 1))) alu = some (14, 1, 1) := by decide
/-- V-SUB-3. -/
theorem test_sub_most : after (placed 0 [0x94] (setReg 4 15 (accCy 0 0))) alu = some (0, 1, 1) := by decide
/-- V-ADM-1. -/
theorem test_adm_1 : after (placed 0 [0xEB] (withDm 3 7 ((accCy 9 0).setSel 0x03))) alu = some (0, 1, 1) := by decide
/-- V-ADM-2. -/
theorem test_adm_top : after (placed 0 [0xEB] (withDm 255 1 ((accCy 2 1).setSel 0xFF))) alu = some (4, 0, 1) := by decide
/-- V-SBM-1. -/
theorem test_sbm_1 : after (placed 0 [0xE8] (withDm 16 1 ((accCy 0 1).setSel 0x10))) alu = some (15, 1, 1) := by decide
/-- V-SBM-2. -/
theorem test_sbm_2 : after (placed 0 [0xE8] (withDm 16 1 ((accCy 5 1).setSel 0x10))) alu = some (4, 0, 1) := by decide
/-- V-IAC-1. -/
theorem test_iac_wraps : after (placed 0 [0xF2] (accCy 15 0)) alu = some (0, 1, 1) := by decide
/-- V-IAC-2. -/
theorem test_iac_clears : after (placed 0 [0xF2] (accCy 7 1)) alu = some (8, 0, 1) := by decide
/-- V-DAC-1. -/
theorem test_dac_wraps : after (placed 0 [0xF8] (accCy 0 1)) alu = some (15, 0, 1) := by decide
/-- V-DAC-2. -/
theorem test_dac_sets : after (placed 0 [0xF8] (accCy 1 0)) alu = some (0, 1, 1) := by decide
/-- V-ROT-1. -/
theorem test_ral_out : after (placed 0 [0xF5] (accCy 8 0)) alu = some (0, 1, 1) := by decide
/-- V-ROT-2. -/
theorem test_ral_in : after (placed 0 [0xF5] (accCy 0 1)) alu = some (1, 0, 1) := by decide
/-- V-ROT-3. -/
theorem test_rar_out : after (placed 0 [0xF6] (accCy 1 0)) alu = some (0, 1, 1) := by decide
/-- V-ROT-4. -/
theorem test_rar_in : after (placed 0 [0xF6] (accCy 0 1)) alu = some (8, 0, 1) := by decide
/-- V-CMA-1. -/
theorem test_cma_keeps_carry : after (placed 0 [0xF4] (accCy 6 1)) alu = some (9, 1, 1) := by decide
/-- V-CLB-1. -/
theorem test_clb : after (placed 0 [0xF0] (accCy 9 1)) alu = some (0, 0, 1) := by decide
/-- V-TCC-1. -/
theorem test_tcc_1 : after (placed 0 [0xF7] (accCy 12 1)) alu = some (1, 0, 1) := by decide
/-- V-TCC-2. -/
theorem test_tcc_0 : after (placed 0 [0xF7] (accCy 12 0)) alu = some (0, 0, 1) := by decide
/-- V-TCS-1. -/
theorem test_tcs_0 : after (placed 0 [0xF9] (accCy 0 0)) alu = some (9, 0, 1) := by decide
/-- V-TCS-2. -/
theorem test_tcs_1 : after (placed 0 [0xF9] (accCy 3 1)) alu = some (10, 0, 1) := by decide
/-- V-CLC-1. -/
theorem test_clc : after (placed 0 [0xF1] (accCy 5 1)) alu = some (5, 0, 1) := by decide
/-- V-CMC-1. -/
theorem test_cmc : after (placed 0 [0xF3] (accCy 0 0)) alu = some (0, 1, 1) := by decide
/-- V-CMC-2. -/
theorem test_cmc_back : after (placed 0 [0xF3] (accCy 0 1)) alu = some (0, 0, 1) := by decide
/-- V-STC-1. -/
theorem test_stc : after (placed 0 [0xFA] (accCy 5 0)) alu = some (5, 1, 1) := by decide
/-- V-DAA, W7. -/
theorem test_daa_overflow : after (placed 0 [0xFB] (accCy 11 0)) alu = some (1, 1, 1) := by decide
/-- V-DAA, cy=1 row. -/
theorem test_daa_clears : after (placed 0 [0xFB] (accCy 3 1)) alu = some (9, 0, 1) := by decide
/-- V-KBP. -/
theorem test_kbp_bit : after (placed 0 [0xFC] (accCy 8 1)) alu = some (4, 1, 1) := by decide
/-- V-KBP. -/
theorem test_kbp_invalid : after (placed 0 [0xFC] (accCy 3 0)) alu = some (15, 0, 1) := by decide
/-- V-CLC-1 with `CARRY_OPS = nop`. -/
theorem test_clc_nop : after (placed 0 [0xF1] ((accCy 5 1).setConfig ⟨256, 0, .nop⟩)) alu = some (5, 1, 1) := by decide
/-- V-STC-1 with `CARRY_OPS = nop`. -/
theorem test_stc_nop : after (placed 0 [0xFA] ((accCy 5 0).setConfig ⟨256, 0, .nop⟩)) alu = some (5, 0, 1) := by decide

/-- V-FIM-1. -/
theorem test_fim_low_nibble : after (placed 0 [0x24, 0x35] (setReg 5 9 State.reset)) (fun t => (reg 4 t, reg 5 t, t.pc)) = some (5, 9, 2) := by decide
/-- V-FIM-3. -/
theorem test_fim_operand_out_of_range : after (placed 0x0FF [0x20] (setReg 0 7 State.reset)) (fun t => (reg 0 t, t.pc)) = some (0, 0x101) := by decide
/-- V-SRC-1. -/
theorem test_src : after (placed 0 [0x23] (setReg 2 10 State.reset)) (fun t => (t.sel, t.pc)) = some (0x0A, 1) := by decide
/-- V-SRC-2. -/
theorem test_src_replaces_all : after (placed 0 [0x21] (setReg 0 3 (State.reset.setSel 0x2A))) (fun t => (t.sel, t.pc)) = some (0x03, 1) := by decide
/-- V-FIN-1. -/
theorem test_fin : after (loadFrom 0x00A [0x08] (placed 0 [0x32] (setReg 0 10 State.reset))) (fun t => (reg 2 t, t.pc)) = some (8, 1) := by decide
/-- V-FIN-3. -/
theorem test_fin_p0_reads_first : after (placed 0 [0x30] State.reset) (fun t => (reg 0 t, t.pc)) = some (0, 1) := by decide
/-- V-JIN-1. -/
theorem test_jin : after (placed 0 [0x37] (setReg 6 2 (State.reset.setSel 0x0A))) (fun t => (t.sel, t.pc)) = some (0x2A, 1) := by decide
/-- V-JIN-2. -/
theorem test_jin_whole_nibble : after (placed 0 [0x31] (setReg 0 15 (State.reset.setSel 0x35))) (fun t => (t.sel, t.pc)) = some (0xF5, 1) := by decide
/-- V-XCH-1. -/
theorem test_xch : after (placed 0 [0xB9] (setReg 9 12 (accCy 3 0))) (fun t => (t.acc, reg 9 t, t.pc)) = some (12, 3, 1) := by decide
/-- V-INC-1. -/
theorem test_inc_wraps : after (placed 0 [0x64] (setReg 4 15 State.reset)) (fun t => (reg 4 t, t.cy, t.pc)) = some (0, 0, 1) := by decide
/-- V-INC-2. -/
theorem test_inc_keeps_carry : after (placed 0 [0x64] (setReg 4 3 (accCy 0 1))) (fun t => (reg 4 t, t.cy, t.pc)) = some (4, 1, 1) := by decide
/-- V-ISZ-1. -/
theorem test_isz_branches : after (placed 0x004 [0x72, 0x03] (setReg 2 12 State.reset)) (fun t => (reg 2 t, t.pc)) = some (13, 0x003) := by decide
/-- V-ISZ-2. -/
theorem test_isz_falls_through : after (placed 0x004 [0x72, 0x03] (setReg 2 15 State.reset)) (fun t => (reg 2 t, t.pc)) = some (0, 0x006) := by decide
/-- V-ISZ-3. -/
theorem test_isz_page : after (placed 0x0FE [0x71, 0x20] State.reset) (fun t => (reg 1 t, t.pc)) = some (1, 0x120) := by decide
/-- V-LD-1. -/
theorem test_ld : after (placed 0 [0xA2] (setReg 2 8 (accCy 0 1))) alu = some (8, 1, 1) := by decide
/-- V-LDM-1. -/
theorem test_ldm : after (placed 0 [0xD7] (accCy 3 0)) alu = some (7, 0, 1) := by decide

/-- V-CT-1. -/
theorem test_jun : after (placed 0 [0x41, 0x23] State.reset) (fun t => (t.pc, t.stack, t.sp)) = some (0x123, #v[0, 0, 0], 0) := by decide
/-- V-CT-2. -/
theorem test_jms : after (placed 0x010 [0x51, 0x23] State.reset) (fun t => (t.pc, t.stack, t.sp)) = some (0x123, #v[0x012, 0, 0], 1) := by decide
/-- V-CT-4. -/
theorem test_jms_full : after (placed 0x030 [0x5F, 0xFF] (withStack #v[0x100, 0x200, 0x300] 3 State.reset)) (fun t => (t.pc, t.stack, t.sp)) = some (0xFFF, #v[0x200, 0x300, 0x032], 3) := by decide
/-- V-CT-6. -/
theorem test_bbl : after (placed 0x040 [0xC0] (withStack #v[0x111, 0x222, 0] 2 State.reset)) (fun t => (t.pc, t.stack, t.sp)) = some (0x222, #v[0x111, 0, 0], 1) := by decide
/-- V-CT-5. -/
theorem test_bbl_empty : after (placed 0x030 [0xC7] State.reset) (fun t => (t.pc, t.acc, t.sp)) = some (0x000, 7, 0) := by decide
/-- V-CT-7. -/
theorem test_jcn_zero : after (placed 0x003 [0x14, 0x08] State.reset) State.pc = some 0x008 := by decide
/-- V-CT-8. -/
theorem test_jcn_inverted : after (placed 0x003 [0x1C, 0x08] State.reset) State.pc = some 0x005 := by decide
/-- V-NOP-1. -/
theorem test_nop : after (placed 0x0FF [0x00] State.reset) State.pc = some 0x100 := by decide
/-- V-NOP-2. -/
theorem test_nop_low_nibble : after (placed 0x005 [0x0F] (accCy 3 0)) alu = some (3, 0, 0x006) := by decide
/-- V-UNA-1. -/
theorem test_unassigned_ff : after (placed 0x020 [0xFF] (accCy 3 1)) alu = some (3, 1, 0x021) := by decide
/-- V-UNA-2. -/
theorem test_unassigned_fe : after (placed 0x020 [0xFE] State.reset) State.pc = some 0x021 := by decide
/-- V-OOR-1. -/
theorem test_beyond_program_memory : after (placed 0x100 [] State.reset) State.pc = some 0x101 := by decide
/-- V-JCN, rows 1 and 3: the condition with TEST 0 and TEST 1 (the test's value is an argument of `jcnTaken`). -/
theorem test_jcn_signal : jcnTaken 1 0 (accCy 5 0) = true ∧ jcnTaken 1 1 (accCy 0 0) = false ∧ jcnTaken 3 1 (accCy 5 1) = true ∧
    jcnTaken 9 0 (accCy 5 0) = false := by decide

/-- V-MEM-1. -/
theorem test_wrm : after (placed 0 [0xE0] (selAcc 0x03 2)) (fun t => (memRead 3 t, t.pc)) = some (2, 1) := by decide
/-- V-MEM-3. -/
theorem test_wrm_top : after (placed 0 [0xE0] (selAcc 0xFF 9)) (fun t => (memRead 255 t, t.pc)) = some (9, 1) := by decide
/-- V-MEM-2. -/
theorem test_rdm : after (placed 0 [0xE9] (withDm 42 6 (selAcc 0x2A 0))) alu = some (6, 0, 1) := by decide
/-- V-ST-1. -/
theorem test_wr0 : after (placed 0 [0xE4] (selAcc 0x00 1)) (fun t => (statRead 0 t, t.pc)) = some (1, 1) := by decide
/-- V-ST-2. -/
theorem test_wr1 : after (placed 0 [0xE5] (selAcc 0x1F 4)) (fun t => (statRead 5 t, t.pc)) = some (4, 1) := by decide
/-- V-ST-3. -/
theorem test_wr2 : after (placed 0 [0xE6] (selAcc 0xE0 7)) (fun t => (statRead 10 t, t.pc)) = some (7, 1) := by decide
/-- example of R216. -/
theorem test_wr3 : after (placed 0 [0xE7] (selAcc 0xF0 15)) (fun t => (statRead 15 t, t.pc)) = some (15, 1) := by decide
/-- V-ST-6. -/
theorem test_rd0 : after (placed 0 [0xEC] (withSt 8 6 (selAcc 0x20 0))) alu = some (6, 0, 1) := by decide
/-- example of R218. -/
theorem test_rd1 : after (placed 0 [0xED] (withSt 5 9 (selAcc 0x10 0))) alu = some (9, 0, 1) := by decide
/-- example of R219. -/
theorem test_rd2 : after (placed 0 [0xEE] (withSt 10 4 (selAcc 0x2F 0))) alu = some (4, 0, 1) := by decide
/-- V-ST-4. -/
theorem test_rd3 : after (placed 0 [0xEF] (withSt 15 15 (selAcc 0x30 0))) alu = some (15, 0, 1) := by decide
/-- V-ST-5. -/
theorem test_rd3_ignores_high_bits : after (placed 0 [0xEF] (withSt 3 2 (selAcc 0xC5 0))) alu = some (2, 0, 1) := by decide
/-- V-PORT-1. -/
theorem test_wmp : after (placed 0 [0xE1] (accCy 5 0)) (fun t => (t.dmport, t.pc)) = some (5, 1) := by decide
/-- V-PORT-2. -/
theorem test_wrr : after (placed 0 [0xE2] (accCy 12 0)) (fun t => (t.romport, t.pc)) = some (12, 1) := by decide
/-- V-PORT-3. -/
theorem test_rdr : after (placed 0 [0xEA] (State.reset.setRomport 3)) alu = some (3, 0, 1) := by decide
/-- V-WPM-1. -/
theorem test_wpm : after (placed 0x040 [0xE3] (accCy 9 0)) (fun t => (pmFetch 0x040 t, t.pc)) = some (0xE3, 0x041) := by decide
/-- V-DCL-1. -/
theorem test_dcl : after (placed 0 [0xFD] (accCy 6 0)) (fun t => (t.cc, t.pc)) = some (6, 1) := by decide

/-! ### Shared operations, the host and the run -/

/-- V-STK: four pushes lose the first. -/
theorem test_push_four : (push 4 (push 3 (push 2 (push 1 State.reset)))).stack = #v[2, 3, 4] := by decide
/-- V-STK: a pop of the full stack. -/
theorem test_pop_full : popValue (withStack #v[2, 3, 4] 3 State.reset) = 4 ∧
    (popRest (withStack #v[2, 3, 4] 3 State.reset)).stack = #v[2, 3, 0] := by decide
/-- V-STK: a pop of the empty stack. -/
theorem test_pop_empty : popValue State.reset = 0 ∧ (popRest State.reset).sp = 0 := by decide
/-- R66: outside the main array a read gives 0 and a write raises DecodeBug. -/
theorem test_mem_outside : memRead 256 State.reset = 0 ∧ memRead 255 (withDm 255 3 State.reset) = 3 := by decide
/-- R62: the last cell and the first address without one. -/
theorem test_fetch_bound : pmFetch 0x0FF (loadFrom 0x0FF [0xAB, 0xCD] State.reset) = 0xAB ∧
    pmFetch 0x100 (loadFrom 0x0FF [0xAB, 0xCD] State.reset) = 0 := by decide
/-- V-RST-1: reset keeps the program. -/
theorem test_reset_keeps_program : resetInput ((loadFrom 0 [0xD7] (accCy 9 1)).setPc 5) = loadFrom 0 [0xD7] State.reset := by decide
/-- R104: a label on the page of `pc + 2`, and one that is not. -/
theorem test_short_label : shortLabel 0x0FE 0x120 = some 0x20 ∧ shortLabel 0x0FD 0x120 = none := by decide
/-- R104: the text of a line. -/
theorem test_line_text : lineText (.isz 2 3) = "ISZ R2, 3" := by decide
/-- R84: the transactions of `FIN P1` at 0x000, two fetches. -/
theorem test_accesses_fin : stepAccesses (placed 0 [0x32] (setReg 0 10 State.reset)) = [.pmFetch 0 0x32, .pmFetch 0x00A 0] := by decide
/-- The instruction placed where the step fetches runs first after reset. -/
theorem test_withFetchWord : after (State.reset.withFetchWord 8 0xD7) alu = some (7, 0, 1) := by decide
/-- The same at an address that holds no cell before. -/
theorem test_withFetchWord_beyond : after ((State.reset.setPc 0x200).withFetchWord 16 0x2341) State.pc = some 0x123 := by decide
/-- R10: an event that the host is refused, and one it is not, at the bound of a 4-bit element. -/
theorem test_host_write_bound : (match react (.write .acc 16) State.reset with | .refused r => decide (r = .hostValueOutOfRange) | .next _ | .fault _ => false) = true ∧
    (match react (.write .acc 15) State.reset with | .next t => t.acc == 15 | .refused _ | .fault _ => false) = true := by decide
/-- The reset memories are canonical. -/
theorem test_reset_memories : Memory.wf State.reset.config.pmSize State.reset.pm = true ∧ Memory.wf dmSize State.reset.dm = true ∧
    Memory.wf stSize State.reset.st = true := by decide

/-! ### Witnesses: for each statement with hypotheses, a state and operands that meet all of them together -/

theorem witness_DecodeEncodeRoundTrip : Instr.wellFormed (.fim 7 0xFF) = true := by decide
theorem witness_EncodeDecodeRoundTrip : decode [0x7F, 0x10, 0xAA] = .ok (.isz 15 0x10, [0xAA]) := by decide
theorem witness_DecodingIsTotal : decode [0x5F] = .error (.noOperandByte 0x5F) ∧ decode [0x3F] = .ok (.jin 7, []) := by decide
theorem witness_FirstByteSelectsOneRow : (⟨"UNASSIGNED", 0xFE, 0xFE, 1⟩ : OpcodeRow) ∈ opcodeTable ∧
    OpcodeRow.covers ⟨"UNASSIGNED", 0xFE, 0xFE, 1⟩ 0xFF = true := by decide
theorem witness_UnmappedBytesOnlyAdvance_nop : pmFetch 0 (placed 0 [0x0F] State.reset) < 0x10 := by decide
theorem witness_UnmappedBytesOnlyAdvance_fe : pmFetch 0 (placed 0 [0xFE] State.reset) = 0xFE := by decide
theorem witness_UnmappedBytesOnlyAdvance_ff : pmFetch 0 (placed 0 [0xFF] State.reset) = 0xFF := by decide
theorem witness_StepRunsDecodedInstruction :
    decode [pmFetch 0xFFF (State.reset.setPc 0xFFF), pmFetch (0xFFF + 1) (State.reset.setPc 0xFFF)] = .ok (.nop 0, [0]) ∧
    Instr.wellFormed (.nop 0) = true := by decide
theorem witness_PcAdvances : Instr.mayTransfer (.fim 0 0) = false ∧ Instr.mayTransfer .wrm = false := by decide
theorem witness_PcTransfers : (Instr.jun 0xFFF = .jun 0xFFF ∨ Instr.jun 0xFFF = .jms 0xFFF) ∧ Instr.bbl 15 = .bbl 15 ∧
    Instr.jcn 15 0xFF = .jcn 15 0xFF ∧ Instr.isz 15 0xFF = .isz 15 0xFF := by decide
theorem witness_CarryReadersAndWriters : Instr.writesCarry (.inc 15) = false ∧ Instr.readsCarry .dac = false := by decide
theorem witness_AccumulatorAndMemoryWriters : Instr.writesAcc .dcl = false ∧ Instr.kbp ≠ .wrm ∧
    Instr.wrm ≠ .wr0 ∧ Instr.wrm ≠ .wr1 ∧ Instr.wrm ≠ .wr2 ∧ Instr.wrm ≠ .wr3 := by decide
theorem witness_IndexRegisterAccess : Instr.writesReg (.fin 7) = some 14 ∧ Instr.writesReg (.fin 7) ≠ some 15 ∧
    Instr.readsReg (.fin 7) ≠ some 14 ∧ Instr.readsReg (.xch 3) ≠ some 2 := by decide
theorem witness_PairInstructionsUseEvenSlot : (Instr.jin 7 = .fim 7 0 ∨ Instr.jin 7 = .src 7 ∨ Instr.jin 7 = .fin 7 ∨
    Instr.jin 7 = .jin 7) ∧ (15 : Nibble) ≠ evenSlot 7 := by decide
theorem witness_PairInstructionsUseEvenSlot_decode : decodeBytes 0x2E 0xFF = .fim 7 0xFF ∧ decodeBytes 0x2F 0 = .src 7 ∧
    decodeBytes 0x3E 0 = .fin 7 ∧ decodeBytes 0x3F 0 = .jin 7 := by decide
theorem witness_LongJump : decodeBytes 0x4F 0xFF = .jun 0xFFF ∧ decodeBytes 0x51 0x23 = .jms 0x123 := by decide
theorem witness_CommandControlAccess : Instr.kbp ≠ .dcl := by decide
theorem witness_SelectorPersists : ∀ p, Instr.wrm ≠ .src p ∧ Instr.wrm ≠ .jin p := by decide
theorem witness_StackOnlyJmsBbl : (∀ a, Instr.jun 5 ≠ .jms a) ∧ ∀ d, Instr.jun 5 ≠ .bbl d := by simp
theorem witness_PortAccess : Instr.rdr ≠ .wmp ∧ Instr.wmp ≠ .wrr ∧ Instr.wmp ≠ .rdr := by decide
theorem witness_TestInputOnlyInJcn : ∀ c a, Instr.jcn 14 0xFF = .jcn c a → jcnSamplesTest c = false := by
  intro c a h
  injection h with hc _
  subst hc
  decide
theorem witness_AddAndAdm_carry : (accCy 7 1).acc.toNat + (reg 3 (setReg 3 8 (accCy 7 1))).toNat + (accCy 7 1).cy.toNat > 15 := by decide
theorem witness_AddAndAdm_no_carry : ¬ (accCy 7 0).acc.toNat + (reg 3 (setReg 3 8 (accCy 7 0))).toNat + (accCy 7 0).cy.toNat > 15 := by decide
theorem witness_DecimalAdjust : ((accCy 10 0).cy = 1 ∨ (accCy 10 0).acc.toNat > 9) ∧ ((accCy 0 1).cy = 1 ∨ (accCy 0 1).acc.toNat > 9) ∧
    ¬ ((accCy 9 0).cy = 1 ∨ (accCy 9 0).acc.toNat > 9) := by decide
theorem witness_KeyboardProcess : (accCy 8 0).acc.toNat = 2 ^ 3 ∧ (accCy 0 0).acc = 0 ∧ (accCy 15 0).acc ≠ 0 ∧
    ∀ k < 4, (accCy 15 0).acc.toNat ≠ 2 ^ k := by decide
theorem witness_CarryInstructions_historical : State.reset.config.carryOps = .historical := by decide
theorem witness_CarryInstructions_nop : (State.reset.setConfig ⟨256, 0, .nop⟩).config.carryOps = .nop ∧
    (Instr.stc = .clc ∨ Instr.stc = .cmc ∨ Instr.stc = .stc) := by decide
theorem witness_FetchIntoPair : (15 : Nibble) ≠ evenSlot 7 := by decide
theorem witness_Exchange : (14 : Nibble) ≠ 15 := by decide
theorem witness_IncrementRegister : (reg 2 (setReg 2 15 State.reset)).toNat = 15 ∧ ¬ (reg 2 (setReg 2 14 State.reset)).toNat = 15 := by decide
theorem witness_CallPushesReturnAddress : (withStack #v[1, 2, 0] 2 State.reset).sp.val < 3 ∧ (withStack #v[1, 2, 3] 3 State.reset).sp.val = 3 := by decide
theorem witness_ReturnPopsAndLoads : 0 < (withStack #v[1, 0, 0] 1 State.reset).sp.val ∧ State.reset.sp.val = 0 := by decide
theorem witness_CallThenReturn : (withStack #v[1, 2, 0] 2 State.reset).sp.val < 3 ∧ (withStack #v[1, 2, 0] 2 State.reset).stackClear := by decide
theorem witness_StackLifoWithSaturation : State.reset.sp.val = 0 ∧ ∀ i : Fin 3, State.reset.sp.val ≤ i.val → State.reset.stack[i.val] = 0 := by decide
theorem witness_JumpOnCondition_taken : (4 : Nibble).toNat < 8 ∧ (4 : Nibble).toNat / 4 % 2 = 1 ∧ (accCy 0 0).acc = 0 := by decide
theorem witness_JumpOnCondition_carry : (2 : Nibble).toNat < 8 ∧ (2 : Nibble).toNat / 2 % 2 = 1 ∧ (accCy 5 1).cy = 1 := by decide
/-- Whatever TEST is, one of JCN 1's two clauses is met. -/
theorem witness_JumpOnCondition_signal : (1 : Nibble).toNat < 8 ∧ (1 : Nibble).toNat % 2 = 1 ∧
    (Config.testInput 0 = 0 ∨ ¬ Config.testInput 0 = 0) := ⟨by decide, by decide, Classical.em _⟩
theorem witness_JumpOnCondition_not_taken : ¬ (8 : Nibble).toNat < 8 := by decide
theorem witness_MainMemoryAccess : (withDm 255 9 (State.reset.setSel 0xFF)).wf ∧ (254 : Nat) ≠ (withDm 255 9 (State.reset.setSel 0xFF)).sel.toNat := by decide
theorem witness_StatusWrites : (withSt 15 9 (State.reset.setSel 0xFF)).wf ∧ ((3 = 0 ∧ Instr.wr3 = .wr0) ∨ (3 = 1 ∧ Instr.wr3 = .wr1) ∨
    (3 = 2 ∧ Instr.wr3 = .wr2) ∨ (3 = 3 ∧ Instr.wr3 = .wr3)) := by decide
theorem witness_StatusReads : (0 = 0 ∧ Instr.rd0 = .rd0) ∨ (0 = 1 ∧ Instr.rd0 = .rd1) ∨ (0 = 2 ∧ Instr.rd0 = .rd2) ∨
    (0 = 3 ∧ Instr.rd0 = .rd3) := by decide
theorem witness_ProgramFetch : (0x0FF : Addr).toNat < State.reset.config.pmSize ∧ State.reset.config.pmSize ≤ (0x100 : Addr).toNat := by decide
theorem witness_DataArrayBounds : State.reset.wf ∧ 255 < 256 ∧ 15 < 16 ∧ 256 ≤ 256 ∧ 16 ≤ 16 := by decide
/-- A state of a run, the step's answer and the invariants: a WRM at `sel = 0xFF`. -/
theorem witness_StepKeepsWellFormed : (placed 0 [0xE0] (selAcc 0xFF 9)).wf ∧
    step (placed 0 [0xE0] (selAcc 0xFF 9)) = .next (withDm 255 9 ((placed 0 [0xE0] (selAcc 0xFF 9)).setPc 1)) := ⟨by decide, rfl⟩
theorem witness_EventsKeepWellFormed : State.reset.wf ∧
    react (.load [0xD7]) State.reset = .next (State.reset.setPm [(0, 0xD7)]) := ⟨by decide, rfl⟩
theorem witness_StepKeepsStackClear : (placed 0x010 [0x51, 0x23] State.reset).stackClear ∧
    step (placed 0x010 [0x51, 0x23] State.reset) =
      .next (withStack #v[0x012, 0, 0] 1 ((placed 0x010 [0x51, 0x23] State.reset).setPc 0x123)) := ⟨by decide, rfl⟩
theorem witness_ParametersFixed : react (.direct .iac) State.reset = .next ((State.reset.setAcc 1).setPc 1) := rfl
theorem witness_LoadCopiesImage : State.reset.wf ∧ (0x001 : Addr).toNat < [0xD7, 0xC5].length ∧
    (0x001 : Addr).toNat < State.reset.config.pmSize ∧ ¬ (0x002 : Addr).toNat < [0xD7, 0xC5].length := by decide
theorem witness_HostWrite_refused : State.reset.wf ∧ elementRange .acc ≤ 16 := by decide
theorem witness_HostWrite_replaced : State.reset.wf ∧ 255 < elementRange (.pm 0x0FF) ∧
    ((0x0FF : Addr).toNat < State.reset.config.pmSize) ∧ Element.acc ≠ .pm 0x0FF := by decide
theorem witness_HostWrite_no_cell : State.reset.wf ∧ 255 < elementRange (.pm 0x100) ∧ State.reset.config.pmSize ≤ (0x100 : Addr).toNat := by decide
/-- The end state of program P2: `JUN 0x006` at 0x006. -/
theorem witness_JumpToSelfIsFixedPoint : (placed 0x006 [0x40, 0x06] State.reset).atEnd := by decide
theorem witness_RunsNopsBeyondProgramMemory : (State.reset.setPc 0x110).config.pmSize ≤ (State.reset.setPc 0x110).pc.toNat ∧
    (State.reset.setPc 0x110).pc.toNat + 3824 ≤ 4096 := by decide
/-- RDM at `sel` 3: another state may hold anything but the program byte and the character that are read. -/
theorem witness_TransactionsAccountForMemory :
    State.sameCore (withDm 4 9 (withDm 3 7 ((placed 0 [0xE9, 0xFF] State.reset).setSel 3))) (withDm 3 7 ((placed 0 [0xE9] State.reset).setSel 3)) ∧
    ∀ x ∈ stepAccesses (withDm 3 7 ((placed 0 [0xE9] State.reset).setSel 3)),
      x.carries (withDm 4 9 (withDm 3 7 ((placed 0 [0xE9, 0xFF] State.reset).setSel 3))) = true := by decide
/-- A read of another value is not carried: 43_memory_io R212. -/
theorem test_access_carries : Access.carries (.dmRead 3 7) (withDm 3 7 State.reset) = true ∧
    Access.carries (.dmRead 3 7) (withDm 3 6 State.reset) = false := by decide
theorem witness_AssemblyRoundTrip : sourceLine (.fim 7 0xFF) = some (.fim 7 255) ∧ (SourceLine.fim 8 255).wellFormed = false := by decide

end Sys2Proof.Tests
end

section
/-! PROOF. What the shared operations and the instructions do to the selector (10_state R31, R32). -/

namespace Sys2Proof.Machine

/-! ### The shared operations keep the selector -/

section
variable (s : State)

@[simp] theorem setReg_sel (r v : Nibble) : (setReg r v s).sel = s.sel := rfl
@[simp] theorem push_sel (v : Addr) : (push v s).sel = s.sel := rfl
@[simp] theorem popRest_sel : (popRest s).sel = s.sel := rfl
@[simp] theorem sampleTest_sel (used : Bool) : (sampleTest used s).sel = s.sel := rfl
@[simp] theorem aluWrite_sel (t : Int) : (aluWrite t s).sel = s.sel := rfl
@[simp] theorem carryOp_sel (v : Bit) : (carryOp v s).sel = s.sel := rfl

end

/-! ### The instructions -/

/-- The five instructions that store to data memory complete because their index is in range (`exec_wrm`, `exec_wr0` to
`exec_wr3`); every other one answers its update outright. No update but that of SRC and JIN is made with `setSel`. -/
theorem exec_keeps_sel {i : Instr} (hsrc : ∀ p, i ≠ .src p) (hjin : ∀ p, i ≠ .jin p) (s : State) :
    ∃ t, exec i s = .next t ∧ t.sel = s.sel := by
  cases i with
  | src p => exact absurd rfl (hsrc p)
  | jin p => exact absurd rfl (hjin p)
  | wrm => exact ⟨_, exec_wrm s, by simp⟩
  | wr0 => exact ⟨_, exec_wr0 s, by simp⟩
  | wr1 => exact ⟨_, exec_wr1 s, by simp⟩
  | wr2 => exact ⟨_, exec_wr2 s, by simp⟩
  | wr3 => exact ⟨_, exec_wr3 s, by simp⟩
  | _ => exact ⟨_, rfl, by simp⟩

/-- Settles O16, from the frame rules of the operations: only SRC and JIN write the selector. -/
theorem selectorPersists : Obligations.SelectorPersists := fun _ s h =>
  exec_keeps_sel (fun p => (h p).1) (fun p => (h p).2) s

end Sys2Proof.Machine
end

section
/-! PROOF. The memory units (20_memory): program memory as fetches, instructions and loads see it, and the status characters
that WR0 to WR3 and RD0 to RD3 address. -/

namespace Sys2Proof.Machine

/-! ### Fetches (R62) -/

theorem pmFetch_of_lt {a : Addr} {s : State} (h : a.toNat < s.config.pmSize) : pmFetch a s = s.pm.read a.toNat := if_pos h

theorem pmFetch_of_le {a : Addr} {s : State} (h : s.config.pmSize ≤ a.toNat) : pmFetch a s = 0 := if_neg (by omega)

/-- Settles O45: the two branches of a fetch. -/
theorem programFetch : Obligations.ProgramFetch := fun _ _ => ⟨pmFetch_of_lt, pmFetch_of_le⟩

/-! ### No instruction writes program memory (R63) -/

section
variable (s : State)

@[simp] theorem setReg_pm (r v : Nibble) : (setReg r v s).pm = s.pm := rfl
@[simp] theorem push_pm (v : Addr) : (push v s).pm = s.pm := rfl
@[simp] theorem popRest_pm : (popRest s).pm = s.pm := rfl
@[simp] theorem sampleTest_pm (used : Bool) : (sampleTest used s).pm = s.pm := rfl
@[simp] theorem aluWrite_pm (t : Int) : (aluWrite t s).pm = s.pm := rfl
@[simp] theorem carryOp_pm (v : Bit) : (carryOp v s).pm = s.pm := rfl

end

/-- No update of any instruction is made with `setPm`; the five stores to data memory complete because their index is in
range (`exec_wrm`, `exec_wr0` to `exec_wr3`). -/
theorem exec_keeps_pm (i : Instr) (s : State) : ∃ t, exec i s = .next t ∧ t.pm = s.pm := by
  cases i with
  | wrm => exact ⟨_, exec_wrm s, by simp⟩
  | wr0 => exact ⟨_, exec_wr0 s, by simp⟩
  | wr1 => exact ⟨_, exec_wr1 s, by simp⟩
  | wr2 => exact ⟨_, exec_wr2 s, by simp⟩
  | wr3 => exact ⟨_, exec_wr3 s, by simp⟩
  | _ => exact ⟨_, rfl, by simp⟩

/-- Settles O18, from the frame rules of the operations; WPM is one of the no-operations. -/
theorem programMemoryNeverWritten : Obligations.ProgramMemoryNeverWritten := ⟨exec_keeps_pm, exec_wpm⟩

/-! ### Status characters (R65, R67) -/

/-- The index of a status character, with `sel[5:4]` as arithmetic. -/
theorem statIndex_eq (n : Nat) (s : State) : statIndex n s = s.sel.toNat / 16 % 4 * 4 + n := by
  simp [statIndex, statBank, Nat.shiftRight_eq_div_pow]

theorem statRead_of_lt {j : Nat} (h : j < stSize) (s : State) : statRead j s = s.st.read j := if_pos h

theorem statRead_write_same {j : Nat} {s : State} (v : Nibble) (h : s.wf) (hj : j < stSize) :
    statRead j (s.setSt (s.st.write j v)) = v := by
  obtain ⟨-, -, -, -, hst⟩ := h
  rw [statRead_of_lt hj]
  exact Memory.read_write_same v hst

theorem statRead_write_other {j k : Nat} {s : State} (v : Nibble) (h : s.wf) (hk : k ≠ j) :
    statRead k (s.setSt (s.st.write j v)) = statRead k s := by
  obtain ⟨-, -, -, -, hst⟩ := h
  simp only [statRead, setSt_st, Memory.read_write_other v hst hk]

/-- Settles O43: each WRn is `statusWrite n`, whose index lies in the array, so the read-over-write rules apply. -/
theorem statusWrites : Obligations.StatusWrites := by
  intro s hs n i hi
  obtain ⟨hn, hexec⟩ : n < 4 ∧ exec i s = statusWrite n s := by
    rcases hi with ⟨rfl, rfl⟩ | ⟨rfl, rfl⟩ | ⟨rfl, rfl⟩ | ⟨rfl, rfl⟩ <;> exact ⟨by decide, rfl⟩
  rw [← statIndex_eq]
  refine ⟨_, hexec.trans (statusWrite_eq hn s), ?_, fun j hj => ?_, rfl⟩
  · rw [statRead_advance, statRead_write_same _ hs (statIndex_lt hn s)]
  · rw [statRead_advance, statRead_write_other _ hs hj]

/-- Settles O44: each RDn is `statusRead n`, whose index lies in the array. -/
theorem statusReads : Obligations.StatusReads := by
  intro s n i hi
  obtain ⟨hn, hexec⟩ : n < 4 ∧ exec i s = statusRead n s := by
    rcases hi with ⟨rfl, rfl⟩ | ⟨rfl, rfl⟩ | ⟨rfl, rfl⟩ | ⟨rfl, rfl⟩ <;> exact ⟨by decide, rfl⟩
  rw [← statIndex_eq, ← statRead_of_lt (statIndex_lt hn s)]
  exact hexec

/-! ### Loading a program image (R80, R81) -/

@[simp] theorem pmStore_config (a : Nat) (b : Byte) (s : State) : (pmStore a b s).config = s.config := by
  rw [pmStore_eq, setPm_config]

/-- A fetch after a stored program byte: the byte at its own address, if that has a cell. -/
theorem pmFetch_pmStore {s : State} (c : Addr) (a : Nat) (b : Byte) (h : s.wf) :
    pmFetch c (pmStore a b s) = if c.toNat = a ∧ a < s.config.pmSize then b else pmFetch c s := by
  obtain ⟨-, -, hpm, -, -⟩ := h
  by_cases ha : a < s.config.pmSize
  · have hstore : pmStore a b s = s.setPm (s.pm.write a b) := if_pos ha
    rw [hstore]
    by_cases hc : c.toNat = a
    · subst hc
      rw [if_pos ⟨rfl, ha⟩]
      exact (pmFetch_of_lt (s := s.setPm (s.pm.write c.toNat b)) ha).trans (Memory.read_write_same b hpm)
    · rw [if_neg (fun e => hc e.1)]
      simp only [pmFetch, setPm_config, setPm_pm, Memory.read_write_other b hpm hc]
  · have hdrop : pmStore a b s = s := if_neg ha
    rw [hdrop, if_neg (fun e => ha e.2)]

/-- Loading changes program memory only. -/
theorem loadFrom_eq (a : Nat) (image : List Byte) (s : State) :
    loadFrom a image s = s.setPm (loadFrom a image s).pm := by
  induction image generalizing a s with
  | nil => rfl
  | cons b rest ih =>
    rw [loadFrom, ih, pmStore_eq]
    rfl

/-- A fetch after a load at `a`: an address with a cell takes the image's byte at its offset from `a`, if there is one. -/
theorem pmFetch_loadFrom (c : Addr) (a : Nat) (image : List Byte) {s : State} (h : s.wf) :
    pmFetch c (loadFrom a image s) =
      if a ≤ c.toNat ∧ c.toNat < s.config.pmSize then image[c.toNat - a]?.getD (pmFetch c s) else pmFetch c s := by
  induction image generalizing a s with
  | nil => simp [loadFrom]
  | cons b rest ih =>
    rw [loadFrom, ih _ (pmStore_wf a b h), pmFetch_pmStore c a b h, pmStore_config]
    obtain hlt | heq | hgt : c.toNat < a ∨ c.toNat = a ∨ a < c.toNat := by omega
    · rw [if_neg (by omega), if_neg (by omega), if_neg (by omega)]
    · subst heq
      rw [if_neg (by omega)]
      simp
    · have hoffset : c.toNat - a = c.toNat - (a + 1) + 1 := by omega
      have hother : ¬ (c.toNat = a ∧ a < s.config.pmSize) := fun e => hgt.ne' e.1
      rw [if_neg hother, hoffset, List.getElem?_cons_succ]
      simp only [Nat.succ_le_of_lt hgt, hgt.le]

/-- Settles O54: a load is one from offset 0, where the offset of an address is the address itself. -/
theorem loadCopiesImage : Obligations.LoadCopiesImage := by
  intro image s hs
  refine ⟨loadImage image s, rfl, loadFrom_eq 0 image s, fun a => ?_⟩
  rw [loadImage, pmFetch_loadFrom a 0 image hs]
  by_cases hcell : a.toNat < s.config.pmSize
  · by_cases hlen : a.toNat < image.length
    · simp [hlen, hcell]
    · simp [hlen]
  · simp [hcell]

end Sys2Proof.Machine
end

section
/-! PROOF. The length of an instruction and the bytes a step fetches (30_encoding R90, R91). -/

namespace Sys2Proof

/-! ### Length (R91) -/

theorem Instr.length_eq_one_or_two (i : Instr) : i.length = 1 ∨ i.length = 2 := by
  cases i with
  | jcn | fim | jun | jms | isz => exact .inr rfl
  | _ => exact .inl rfl

theorem Instr.length_eq_two_iff (i : Instr) : i.length = 2 ↔
    (∃ c a, i = .jcn c a) ∨ (∃ p d, i = .fim p d) ∨ (∃ a, i = .jun a) ∨ (∃ a, i = .jms a) ∨ ∃ r a, i = .isz r a := by
  cases i with
  | jcn | fim | jun | jms | isz => exact iff_of_true rfl (by simp)
  | _ => exact iff_of_false (by simp [Instr.length]) (by simp)

theorem length_decodeGroupE (f : Nibble) : (decodeGroupE f).length = 1 := by
  unfold decodeGroupE
  split <;> rfl

theorem length_decodeGroupF (f : Nibble) : (decodeGroupF f).length = 1 := by
  unfold decodeGroupF
  split <;> rfl

/-- `isTwoWord`, which sees the first byte alone, gives the length of the decoded instruction: group by group, where group 2
asks its sibling bit in both. -/
theorem length_decodeBytes (b1 b2 : Byte) : (decodeBytes b1 b2).length = if isTwoWord b1 then 2 else 1 := by
  unfold decodeBytes isTwoWord
  generalize (opr b1).toNat = n
  split
  case h_3 => rw [apply_ite Instr.length]; simp [Instr.length]
  case h_4 => split <;> rfl
  case h_15 => exact length_decodeGroupE _
  case h_16 => simp_all [length_decodeGroupF]
  all_goals rfl

/-- Two bytes always decode, and a one-word first byte leaves the second (R91, R102). -/
theorem decode_pair (b1 b2 : Byte) : decode [b1, b2] = .ok (decodeBytes b1 b2, if isTwoWord b1 then [] else [b2]) := by
  cases h : isTwoWord b1 with
  | true => exact decode_twoWord b2 [] h
  | false => rw [decodeBytes_oneWord b2 h]; exact decode_oneWord [b2] h

namespace Machine

/-! ### The fetch (R90) -/

theorem operandAddress_eq (s : State) : operandAddress s = BitVec.ofNat 12 ((s.pc.toNat + 1) % 4096) := by
  apply BitVec.eq_of_toNat_eq
  simp [operandAddress]

theorem fetchedBytes_eq (s : State) :
    fetchedBytes s = pmFetch s.pc s :: if (fetchedInstr s).length = 2 then [pmFetch (operandAddress s) s] else [] := by
  rw [fetchedInstr, length_decodeBytes]
  cases h : isTwoWord (pmFetch s.pc s) <;> simp [fetchedBytes, h]

/-- The fetched bytes are those of the fetched instruction, all of them. -/
theorem decode_fetchedBytes (s : State) : decode (fetchedBytes s) = .ok (fetchedInstr s, []) := by
  cases h : isTwoWord (pmFetch s.pc s) with
  | true => simp [fetchedBytes, fetchedInstr, h, decode_twoWord]
  | false => simp [fetchedBytes, fetchedInstr, h, decode_oneWord, decodeBytes_oneWord (pmFetch (operandAddress s) s) h]

/-- Settles O4: `isTwoWord` of the first byte is the decoded length, and the fetch asks for `b2` by it. -/
theorem firstByteDecidesLength : Obligations.FirstByteDecidesLength := by
  refine ⟨fun b1 b2 b2' => ?_, fun i => ⟨i.length_eq_one_or_two, i.length_eq_two_iff⟩, fun s => ?_⟩
  · rw [length_decodeBytes, length_decodeBytes]
  · refine ⟨fetchedInstr s, decode_fetchedBytes s, rfl, ?_⟩
    rw [← operandAddress_eq]
    exact fetchedBytes_eq s

/-- Settles O8: the two bytes decode to `fetchedInstr`, of which `step` is `exec`. -/
theorem stepRunsDecodedInstruction : Obligations.StepRunsDecodedInstruction := by
  intro s i rest h _
  have hi : fetchedInstr s = i := congrArg Prod.fst (Except.ok.inj ((decode_pair _ _).symm.trans h))
  rw [step, hi]

end Machine

end Sys2Proof
end

section
/-! PROOF. The accumulator instructions (40_alu R121 to R132): the results and the carries as arithmetic. -/

namespace Sys2Proof.Machine

/-! ### The mask and the common carry (R120) -/

/-- The mask of an integer, as an integer: a negative result wraps. -/
theorem mask4_toNat_cast (t : Int) : ((mask4 t).toNat : Int) = t % 16 := by
  rw [mask4_toNat]
  omega

theorem mask4_natCast_toNat (n : Nat) : (mask4 n).toNat = n % 16 := by
  rw [mask4_toNat]
  omega

/-- A sum only overflows. -/
theorem commonCarry_natCast_toNat (n : Nat) : (commonCarry n).toNat = if n > 15 then 1 else 0 := by
  rw [commonCarry_toNat]
  congr 1
  simp

/-- A difference only borrows. -/
theorem commonCarry_toNat_of_le {t : Int} (h : t ≤ 15) : (commonCarry t).toNat = if t < 0 then 1 else 0 := by
  have hover : ¬ t > 15 := by omega
  simp only [commonCarry_toNat, hover, or_false]

/-! ### Sum and difference -/

/-- Every selector addresses a character of data memory. -/
theorem memRead_selector (s : State) : memRead s.sel.toNat s = s.dm.read s.sel.toNat := if_pos (selector_lt s)

theorem addSum_eq (m : Nibble) (s : State) : addSum m s = ((s.acc.toNat + m.toNat + s.cy.toNat : Nat) : Int) := rfl

theorem mask4_addSum_toNat (m : Nibble) (s : State) :
    (mask4 (addSum m s)).toNat = (s.acc.toNat + m.toNat + s.cy.toNat) % 16 := by
  rw [addSum_eq, mask4_natCast_toNat]

theorem commonCarry_addSum_toNat (m : Nibble) (s : State) :
    (commonCarry (addSum m s)).toNat = if s.acc.toNat + m.toNat + s.cy.toNat > 15 then 1 else 0 := by
  rw [addSum_eq, commonCarry_natCast_toNat]

theorem subDiff_le (m : Nibble) (s : State) : subDiff m s ≤ 15 := by
  have hacc := s.acc.isLt
  have hcy := s.cy.isLt
  unfold subDiff
  omega

/-- Settles O21: `addSum` is a natural number, so its carry is the overflow. -/
theorem addAndAdm : Obligations.AddAndAdm := by
  intro s
  rw [← memRead_selector]
  exact ⟨fun r => ⟨_, exec_add s r, mask4_addSum_toNat _ s, commonCarry_addSum_toNat _ s, rfl⟩,
    _, exec_adm s, mask4_addSum_toNat _ s, commonCarry_addSum_toNat _ s, rfl⟩

/-- Settles O22: `subDiff` is at most 15, so its carry is the borrow. -/
theorem subAndSbm : Obligations.SubAndSbm := by
  intro s
  rw [← memRead_selector]
  exact ⟨fun r => ⟨_, exec_sub s r, mask4_toNat_cast _, commonCarry_toNat_of_le (subDiff_le _ s), rfl⟩,
    _, exec_sbm s, mask4_toNat_cast _, commonCarry_toNat_of_le (subDiff_le _ s), rfl⟩

/-! ### Increment, decrement and complement -/

theorem dacCarry_toNat (v : Nibble) : (dacCarry v).toNat = if v.toNat = 0 then 0 else 1 := by
  have hzero : v = 0#4 ↔ v.toNat = 0 := BitVec.toNat_inj.symm
  by_cases h : v.toNat = 0 <;> simp [dacCarry, bitOf, hzero, h]

/-- Settles O23: IAC's sum is a natural number; DAC's carry is the inverse of a borrow. -/
theorem incrementAndDecrement : Obligations.IncrementAndDecrement := fun s =>
  ⟨⟨_, exec_iac s, mask4_natCast_toNat (s.acc.toNat + 1), commonCarry_natCast_toNat (s.acc.toNat + 1), rfl⟩,
    _, exec_dac s, mask4_toNat_cast _, dacCarry_toNat s.acc, rfl⟩

/-- The complement needs no mask. -/
theorem mask4_complement_toNat (v : Nibble) : (mask4 (15 - v.toNat)).toNat = 15 - v.toNat := by
  have hv := v.isLt
  rw [mask4_toNat]
  omega

/-- Settles O26: CMA by `mask4_complement_toNat`; the other three write the stated constants. -/
theorem complementClearTransfer : Obligations.ComplementClearTransfer := fun s =>
  ⟨⟨_, exec_cma s, mask4_complement_toNat s.acc, rfl⟩, exec_clb s, exec_tcc s, exec_tcs s⟩

/-! ### Rotates -/

theorem ralAcc_toNat (v : Nibble) (c : Bit) : (ralAcc v c).toNat = (v.toNat * 2 + c.toNat) % 16 := by
  have hc := c.isLt
  have happend : (ralAcc v c).toNat = v.toNat % 8 * 2 + c.toNat := by
    rw [ralAcc, BitVec.toNat_append, ← Nat.shiftLeft_add_eq_or_of_lt hc]
    simp [Nat.shiftLeft_eq]
  omega

theorem ralCarry_toNat (v : Nibble) : (ralCarry v).toNat = v.toNat / 8 := by
  have hv := v.isLt
  simp only [ralCarry, BitVec.extractLsb'_toNat, Nat.shiftRight_eq_div_pow]
  omega

theorem rarAcc_toNat (v : Nibble) (c : Bit) : (rarAcc v c).toNat = v.toNat / 2 + 8 * c.toNat := by
  have hv := v.isLt
  have hhigh : (v.extractLsb' 1 3).toNat = v.toNat / 2 := by
    simp only [BitVec.extractLsb'_toNat, Nat.shiftRight_eq_div_pow]
    omega
  rw [rarAcc, BitVec.toNat_append, ← Nat.shiftLeft_add_eq_or_of_lt (v.extractLsb' 1 3).isLt, hhigh, Nat.shiftLeft_eq]
  omega

theorem rarCarry_toNat (v : Nibble) : (rarCarry v).toNat = v.toNat % 2 := by
  simp [rarCarry]

/-- Settles O24: the bit fields of a rotate as quotients and remainders. -/
theorem rotates : Obligations.Rotates := fun s =>
  ⟨⟨_, exec_ral s, ralAcc_toNat s.acc s.cy, ralCarry_toNat s.acc, rfl⟩,
    _, exec_rar s, rarAcc_toNat s.acc s.cy, rarCarry_toNat s.acc, rfl⟩

end Sys2Proof.Machine
end

section
/-! PROOF. The register file (41_registers_addressing): the pair instructions FIM, SRC, FIN and JIN (R160), and XCH (R165). -/

namespace Sys2Proof

/-! ### The pair a first byte names (R93, R160) -/

/-- The pair operand of FIM, SRC, FIN and JIN. -/
def Instr.pairOperand : Instr → Option (BitVec 3)
  | .fim p _ | .src p | .fin p | .jin p => some p
  | _ => none

theorem Instr.pairOperand_eq_some {i : Instr} {p : BitVec 3}
    (h : (∃ d, i = .fim p d) ∨ i = .src p ∨ i = .fin p ∨ i = .jin p) : i.pairOperand = some p := by
  rcases h with ⟨_, rfl⟩ | rfl | rfl | rfl <;> rfl

theorem pairOperand_decodeGroupE (f : Nibble) : (decodeGroupE f).pairOperand = none := by
  unfold decodeGroupE
  split <;> rfl

theorem pairOperand_decodeGroupF (f : Nibble) : (decodeGroupF f).pairOperand = none := by
  unfold decodeGroupF
  split <;> rfl

/-- Groups 2 and 3 alone hold pair instructions, and both siblings of a group have the pair field as operand. -/
theorem eq_pairField_of_pairOperand {b1 b2 : Byte} {p : BitVec 3} (h : (decodeBytes b1 b2).pairOperand = some p) :
    p = pairField b1 := by
  unfold decodeBytes at h
  split at h
  case h_3 | h_4 => split at h <;> exact (Option.some.inj h).symm
  case h_15 => rw [pairOperand_decodeGroupE] at h; cases h
  case h_16 => rw [pairOperand_decodeGroupF] at h; cases h
  all_goals cases h

namespace Machine

/-! ### A register that a pair instruction does not read can hold anything -/

theorem evenSlot_add_one_ne (p : BitVec 3) : evenSlot p + 1 ≠ evenSlot p := by decide +revert

theorem evenSlot_add_one_ne_zero (p : BitVec 3) : evenSlot p + 1 ≠ 0 := by decide +revert

section
variable {p : BitVec 3} {q : Nibble} (v : Nibble) (s : State)

theorem exec_fim_setReg (d : Byte) (h : q ≠ evenSlot p) :
    exec (.fim p d) (setReg q v s) = .next (setReg q v (advance 2 (setReg (evenSlot p) (lowNibble d) s))) := by
  rw [exec_fim, setReg_comm h.symm]
  rfl

theorem exec_src_setReg (h : q ≠ evenSlot p) :
    exec (.src p) (setReg q v s) =
      .next (setReg q v (advance 1 (s.setSel (srcSelector (reg (evenSlot p) s) s)))) := by
  rw [exec_src, reg_setReg_other v s h.symm]
  rfl

theorem finAddress_setReg (h : q ≠ 0) : finAddress (setReg q v s) = finAddress s := by
  rw [finAddress, reg_setReg_other v s h.symm, finAddress]

/-- FIN reads `x[0]` for its address, whatever the pair (R163). -/
theorem exec_fin_setReg (h : q ≠ evenSlot p) (h0 : q ≠ 0) :
    exec (.fin p) (setReg q v s) =
      .next (setReg q v (advance 1 (setReg (evenSlot p) (lowNibble (pmFetch (finAddress s) s)) s))) := by
  rw [exec_fin, finAddress_setReg v s h0, setReg_comm h.symm]
  rfl

theorem exec_jin_setReg (h : q ≠ evenSlot p) :
    exec (.jin p) (setReg q v s) =
      .next (setReg q v (advance 1 (s.setSel (withBank (reg (evenSlot p) s) s.sel)))) := by
  rw [exec_jin, reg_setReg_other v s h.symm]
  rfl

end

/-- Settles O14: the odd slot is neither the even slot nor FIN's `x[0]`, so no pair instruction reads it, and the one
register FIM and FIN write is the even slot. -/
theorem pairInstructionsUseEvenSlot : Obligations.PairInstructionsUseEvenSlot := by
  refine ⟨fun b1 b2 p h => ?_, fun p d s i hi => ⟨evenSlot_toNat p, ?_⟩⟩
  · exact eq_pairField_of_pairOperand (Instr.pairOperand_eq_some h)
  · have hodd := evenSlot_add_one_ne p
    rcases hi with rfl | rfl | rfl | rfl
    · exact ⟨_, exec_fim s p d, fun _ hq => reg_setReg_other _ s hq, fun v => exec_fim_setReg v s d hodd⟩
    · exact ⟨_, exec_src s p, fun _ _ => rfl, fun v => exec_src_setReg v s hodd⟩
    · exact ⟨_, exec_fin s p, fun _ hq => reg_setReg_other _ s hq,
        fun v => exec_fin_setReg v s hodd (evenSlot_add_one_ne_zero p)⟩
    · exact ⟨_, exec_jin s p, fun _ _ => rfl, fun v => exec_jin_setReg v s hodd⟩

/-- Settles O32: the one write to a register takes the old accumulator, and `acc` took the register before it. -/
theorem exchange : Obligations.Exchange := fun r s =>
  ⟨_, exec_xch s r, rfl, reg_setReg_same r s.acc (s.setAcc (reg r s)),
    fun _ hq => reg_setReg_other s.acc (s.setAcc (reg r s)) hq, rfl⟩

end Machine

end Sys2Proof
end

section
/-! PROOF. The jump and the call to a long target (42_control_transfer R190, R192), and the instructions that only advance
`pc` (R196, R197). -/

namespace Sys2Proof

/-! ### The long target (R190) -/

/-- The long target of JUN and JMS. -/
def Instr.longTarget : Instr → Option Addr
  | .jun a | .jms a => some a
  | _ => none

theorem Instr.longTarget_eq_some {i : Instr} {a : Addr} (h : i = .jun a ∨ i = .jms a) : i.longTarget = some a := by
  rcases h with rfl | rfl <;> rfl

theorem longTarget_decodeGroupE (f : Nibble) : (decodeGroupE f).longTarget = none := by
  unfold decodeGroupE
  split <;> rfl

theorem longTarget_decodeGroupF (f : Nibble) : (decodeGroupF f).longTarget = none := by
  unfold decodeGroupF
  split <;> rfl

/-- Groups 4 and 5 alone hold instructions with a long target, and it is `{b1[3:0], b2}` in both. -/
theorem eq_opa_append_of_longTarget {b1 b2 : Byte} {a : Addr} (h : (decodeBytes b1 b2).longTarget = some a) :
    a = opa b1 ++ b2 := by
  unfold decodeBytes at h
  split at h
  case h_3 | h_4 => split at h <;> cases h
  case h_5 | h_6 => exact (Option.some.inj h).symm
  case h_15 => rw [longTarget_decodeGroupE] at h; cases h
  case h_16 => rw [longTarget_decodeGroupF] at h; cases h
  all_goals cases h

namespace Machine

/-- Settles O35: the operand is the one that groups 4 and 5 decode, and both instructions write it to `pc` as it is. -/
theorem longJump : Obligations.LongJump :=
  ⟨fun _ _ _ hi => eq_opa_append_of_longTarget (Instr.longTarget_eq_some hi),
    fun h l s => ⟨_, exec_jun s (h ++ l), append_toNat h l, rfl⟩,
    fun h l s => ⟨_, exec_jms s (h ++ l), append_toNat h l⟩,
    fun a => ⟨_, _, (target_append a).symm⟩⟩

/-! ### No operations (R196, R197) -/

/-- Settles O41: neither first byte asks for an operand byte, and NOP and the unassigned instructions advance `pc` by 1. -/
theorem noOperations : Obligations.NoOperations :=
  ⟨fun f s => exec_nop s f,
    fun rest => ⟨decode_oneWord rest (by decide), decode_oneWord rest (by decide)⟩,
    fun f s => exec_unassigned s f⟩

end Machine

end Sys2Proof
end

section
/-! PROOF. Main-memory characters, which WRM and RDM address by the selector (20_memory R64, 43_memory_io R211, R212). -/

namespace Sys2Proof.Machine

theorem memRead_write_same {i : Nat} {s : State} (v : Nibble) (h : s.wf) (hi : i < dmSize) :
    memRead i (s.setDm (s.dm.write i v)) = v := by
  obtain ⟨-, -, -, hdm, -⟩ := h
  rw [memRead, if_pos hi]
  exact Memory.read_write_same v hdm

theorem memRead_write_other {i k : Nat} {s : State} (v : Nibble) (h : s.wf) (hk : k ≠ i) :
    memRead k (s.setDm (s.dm.write i v)) = memRead k s := by
  obtain ⟨-, -, -, hdm, -⟩ := h
  simp only [memRead, setDm_dm, Memory.read_write_other v hdm hk]

/-- Settles O42: the selector lies in main memory, so the read-over-write rules apply to WRM's store; RDM's update is the
stated one. -/
theorem mainMemoryAccess : Obligations.MainMemoryAccess := by
  intro s hs
  refine ⟨⟨_, exec_wrm s, ?_, fun i hi => ?_, rfl⟩, exec_rdm s⟩
  · rw [memRead_advance, memRead_write_same _ hs (selector_lt s)]
  · rw [memRead_advance, memRead_write_other _ hs hi]

end Sys2Proof.Machine
end

section
/-! PROOF. No instruction raises an exception and no step stops (60_exceptions R240). -/

namespace Sys2Proof.Machine

/-- Every instruction completes from every state. `exec_keeps_pm` finds the next state instruction by instruction: the only
writes that could fault, those of WRM and WR0 to WR3, have a selector's index, which is in range. -/
theorem exec_completes (i : Instr) (s : State) : ∃ t, exec i s = .next t := by
  obtain ⟨t, ht, -⟩ := exec_keeps_pm i s
  exact ⟨t, ht⟩

/-- A step completes, because whatever bytes it fetches decode to an instruction. -/
theorem step_completes (s : State) : ∃ t, step s = .next t := exec_completes (fetchedInstr s) s

/-- Settles O9: every instruction completes, so the fetched one does. -/
theorem everyStepCompletes : Obligations.EveryStepCompletes := ⟨exec_completes, step_completes⟩

end Sys2Proof.Machine
end

section
/-! PROOF. The construction state (70_reset R260): every register and slot of a zeroed vector is 0, and a memory that lists no
cell reads 0 at every address (`Memory.read_nil`). -/

namespace Sys2Proof.Machine

theorem reg_reset (r : Nibble) : reg r State.reset = 0 := Vector.getElem_replicate r.isLt

theorem stack_reset (i : Fin 3) : State.reset.stack[i.val] = 0 := Vector.getElem_replicate i.isLt

/-- A fetch reads 0 at an address with a cell, because no cell is listed, and at an address without one, by R62. -/
theorem pmFetch_reset (a : Addr) : pmFetch a State.reset = 0 := by
  obtain h | h := Nat.lt_or_ge a.toNat State.reset.config.pmSize
  · rw [pmFetch_of_lt h]
    exact Memory.read_nil a.toNat
  · exact pmFetch_of_le h

/-- Inside the array no cell is listed; outside it a read gives 0 (R66). -/
theorem memRead_reset (i : Nat) : memRead i State.reset = 0 := by
  by_cases h : i < dmSize
  · exact (if_pos h).trans (Memory.read_nil i)
  · exact if_neg h

/-- Inside the array no cell is listed; outside it a read gives 0 (R67). -/
theorem statRead_reset (j : Nat) : statRead j State.reset = 0 := by
  by_cases h : j < stSize
  · exact (statRead_of_lt h State.reset).trans (Memory.read_nil j)
  · exact if_neg h

/-- Settles O52: the scalar elements are 0 by definition; the registers, the slots and the memories by the lemmas above. -/
theorem constructionState : Obligations.ConstructionState :=
  ⟨rfl, rfl, rfl, reg_reset, rfl, stack_reset, rfl, rfl, pmFetch_reset, rfl, memRead_reset, statRead_reset, rfl⟩

end Sys2Proof.Machine
end

section
/-! PROOF. The encoding (30_encoding R91 to R103): decoding and encoding are inverse, every byte decodes, and each first
byte has one row of the opcode table. -/

namespace Sys2Proof

/-! ### Decoding an encoded instruction (R102) -/

theorem isTwoWord_unassigned (f : Bit) : isTwoWord (0x7F#7 ++ f) = false := by decide +revert

theorem decodeBytes_unassigned (f : Bit) : decodeBytes (0x7F#7 ++ f) 0 = .unassigned f := by decide +revert

/-- Settles O1: the first byte of an encoding decides its length, and the fields put into the bytes are the fields read
from them. -/
theorem decodeEncodeRoundTrip : Obligations.DecodeEncodeRoundTrip := by
  intro i rest _
  cases i with
  | nop | inc | add | sub | ld | xch | bbl | ldm | src | fin | jin =>
    exact (decode_oneWord rest (by simp [isTwoWord])).trans (by simp [decodeBytes])
  | jcn | fim | isz => exact (decode_twoWord _ rest (by simp [isTwoWord])).trans (by simp [decodeBytes])
  | jun | jms => exact (decode_twoWord _ rest (by simp [isTwoWord])).trans (by simp [decodeBytes, target_append])
  | unassigned f => exact (decode_oneWord rest (isTwoWord_unassigned f)).trans (by rw [decodeBytes_unassigned])
  | _ => rfl

/-! ### Encoding a decoded instruction (R102) -/

theorem encode_decodeGroupE (f : Nibble) : encode (decodeGroupE f) = [0xE#4 ++ f] := by decide +revert

theorem encode_decodeGroupF (f : Nibble) : encode (decodeGroupF f) = [0xF#4 ++ f] := by decide +revert

theorem opr_eq {b : Byte} {n : Nat} (h : (opr b).toNat = n) : opr b = BitVec.ofNat 4 n := by
  rw [← h, BitVec.ofNat_toNat, BitVec.setWidth_eq]

theorem append_opa {b : Byte} {n : Nat} (h : (opr b).toNat = n) : BitVec.ofNat 4 n ++ opa b = b := by
  rw [← opr_eq h, opr_append_opa]

theorem append_pair {b : Byte} {n : Nat} {t : Bit} (h : (opr b).toNat = n) (ht : siblingBit b = t) :
    BitVec.ofNat 4 n ++ pairField b ++ t = b := by
  rw [← opr_eq h, ← ht, opr_append_pair_sibling]

theorem siblingBit_eq_zero_or_one (b : Byte) : siblingBit b = 0 ∨ siblingBit b = 1 := by decide +revert

/-- A decoded instruction is encoded by the bytes it was decoded from, the second only where the first asks for it: in
every group the first byte is put together from the fields it was taken apart into. -/
theorem encode_decodeBytes (b1 b2 : Byte) : encode (decodeBytes b1 b2) = b1 :: if isTwoWord b1 then [b2] else [] := by
  unfold decodeBytes isTwoWord
  split
  case h_3 h | h_4 h =>
    obtain hs | hs := siblingBit_eq_zero_or_one b1 <;> simpa [encode, h, hs] using append_pair h hs
  case h_5 h | h_6 h => simp [encode, h, append_opa h, extract_append_high, extract_append_low]
  case h_15 h => simp [encode_decodeGroupE, h, append_opa h]
  case h_16 =>
    have hlt := (opr b1).isLt
    have h : (opr b1).toNat = 15 := by grind
    simp [encode_decodeGroupF, h, append_opa h]
  all_goals simp [encode, append_opa, *]

/-- Settles O2: decoding takes one byte or two, as `isTwoWord` says, and they are the encoding of the instruction. -/
theorem encodeDecodeRoundTrip : Obligations.EncodeDecodeRoundTrip := by
  intro bs i rest h
  match bs with
  | [] => cases h
  | b1 :: tail =>
    cases hw : isTwoWord b1 with
    | false =>
      rw [decode_oneWord tail hw] at h
      cases h
      simp [encode_decodeBytes, hw]
    | true =>
      match tail with
      | [] => simp [decode, hw] at h
      | b2 :: tail =>
        rw [decode_twoWord b2 tail hw] at h
        cases h
        simp [encode_decodeBytes, hw]

/-! ### Every byte decodes (R102, R103) -/

/-- Settles O5: a first byte is enough where `isTwoWord` is false, and its operand byte follows where it is true. -/
theorem decodingIsTotal : Obligations.DecodingIsTotal := by
  refine ⟨fun b1 b2 rest => ?_, fun b1 => ?_, rfl⟩
  · cases h : isTwoWord b1 with
    | false => exact ⟨_, _, decode_oneWord (b2 :: rest) h⟩
    | true => exact ⟨_, _, decode_twoWord b2 rest h⟩
  · rw [length_decodeBytes]
    cases h : isTwoWord b1 <;> simp [decode, h]

/-- Settles O3: the bytes of each sequence are literals, so decoding computes. -/
theorem specWordsDecode : Obligations.SpecWordsDecode := ⟨rfl, rfl, rfl, rfl, rfl, rfl, rfl, rfl, rfl⟩

/-! ### The opcode table -/

/-- Every instruction has a row, which covers the first byte of its encoding. -/
theorem encodingRow : ∀ i : Instr, Laws.EncodingRow.Statement i
  | .nop f => Laws.EncodingRow.nop f
  | .jcn c a => Laws.EncodingRow.jcn c a
  | .fim p d => Laws.EncodingRow.fim p d
  | .src p => Laws.EncodingRow.src p
  | .fin p => Laws.EncodingRow.fin p
  | .jin p => Laws.EncodingRow.jin p
  | .jun a => Laws.EncodingRow.jun a
  | .jms a => Laws.EncodingRow.jms a
  | .inc r => Laws.EncodingRow.inc r
  | .isz r a => Laws.EncodingRow.isz r a
  | .add r => Laws.EncodingRow.add r
  | .sub r => Laws.EncodingRow.sub r
  | .ld r => Laws.EncodingRow.ld r
  | .xch r => Laws.EncodingRow.xch r
  | .bbl d => Laws.EncodingRow.bbl d
  | .ldm d => Laws.EncodingRow.ldm d
  | .wrm => Laws.EncodingRow.wrm
  | .wmp => Laws.EncodingRow.wmp
  | .wrr => Laws.EncodingRow.wrr
  | .wpm => Laws.EncodingRow.wpm
  | .wr0 => Laws.EncodingRow.wr0
  | .wr1 => Laws.EncodingRow.wr1
  | .wr2 => Laws.EncodingRow.wr2
  | .wr3 => Laws.EncodingRow.wr3
  | .sbm => Laws.EncodingRow.sbm
  | .rdm => Laws.EncodingRow.rdm
  | .rdr => Laws.EncodingRow.rdr
  | .adm => Laws.EncodingRow.adm
  | .rd0 => Laws.EncodingRow.rd0
  | .rd1 => Laws.EncodingRow.rd1
  | .rd2 => Laws.EncodingRow.rd2
  | .rd3 => Laws.EncodingRow.rd3
  | .clb => Laws.EncodingRow.clb
  | .clc => Laws.EncodingRow.clc
  | .iac => Laws.EncodingRow.iac
  | .cmc => Laws.EncodingRow.cmc
  | .cma => Laws.EncodingRow.cma
  | .ral => Laws.EncodingRow.ral
  | .rar => Laws.EncodingRow.rar
  | .tcc => Laws.EncodingRow.tcc
  | .dac => Laws.EncodingRow.dac
  | .tcs => Laws.EncodingRow.tcs
  | .stc => Laws.EncodingRow.stc
  | .daa => Laws.EncodingRow.daa
  | .kbp => Laws.EncodingRow.kbp
  | .dcl => Laws.EncodingRow.dcl
  | .unassigned f => Laws.EncodingRow.unassigned f

theorem mem_opcodeTable_of_opcodeRow {i : Instr} {row : OpcodeRow} (h : i.opcodeRow = some row) :
    row ∈ opcodeTable ∧ row.mnemonic = i.mnemonic :=
  ⟨List.mem_of_find?_eq_some h, by simpa using List.find?_some h⟩

/-- Two rows whose patterns agree on the bits that both masks keep are one row. -/
theorem eq_of_pattern_and_mask : ∀ row ∈ opcodeTable, ∀ row' ∈ opcodeTable,
    row.pattern &&& row'.mask = row'.pattern &&& row.mask → row = row' := by decide

theorem eq_of_covers {row row' : OpcodeRow} (hrow : row ∈ opcodeTable) (hrow' : row' ∈ opcodeTable) {b1 : Byte}
    (h : row.covers b1 = true) (h' : row'.covers b1 = true) : row = row' := by
  simp only [OpcodeRow.covers, beq_iff_eq] at h h'
  refine eq_of_pattern_and_mask row hrow row' hrow' ?_
  rw [← h, ← h', BitVec.and_assoc, BitVec.and_assoc, BitVec.and_comm row.mask]

/-- Settles O6: the row of the decoded instruction covers the first byte, because encoding gives that byte back, and no
two rows cover one byte. -/
theorem firstByteSelectsOneRow : Obligations.FirstByteSelectsOneRow := by
  intro b1 b2
  obtain ⟨row, b, rest, hfind, hencode, hcovers, -, hlength⟩ := encodingRow (decodeBytes b1 b2)
  obtain ⟨hmem, hmnemonic⟩ := mem_opcodeTable_of_opcodeRow hfind
  obtain ⟨rfl, -⟩ := List.cons.inj ((encode_decodeBytes b1 b2).symm.trans hencode)
  exact ⟨row, hmem, hcovers, hmnemonic, hlength, fun _ hmem' h => eq_of_covers hmem' hmem h hcovers⟩

namespace Machine

/-! ### The bytes without an operation (R98) -/

theorem decodeBytes_of_opr_eq_zero {b1 : Byte} (b2 : Byte) (h : opr b1 = 0) : decodeBytes b1 b2 = .nop (opa b1) := by
  simp [decodeBytes, h]

theorem opr_eq_zero_of_lt {b1 : Byte} (h : b1 < 0x10) : opr b1 = 0 := by decide +revert

/-- Settles O7: the byte at `pc` decodes to a NOP or to an unassigned instruction. -/
theorem unmappedBytesOnlyAdvance : Obligations.UnmappedBytesOnlyAdvance := by
  intro s h
  unfold step fetchedInstr
  rcases h with h | h | h
  · rw [decodeBytes_of_opr_eq_zero _ (opr_eq_zero_of_lt h)]
    rfl
  · rw [h]; rfl
  · rw [h]; rfl

end Machine

end Sys2Proof
end

section
/-! PROOF. The next state of every instruction as a function, and who reads and writes each piece of state (00_scope R9,
10_state sections 2 to 5 and 8). A field that an instruction does not read commutes with it: changing the field
before or after the instruction comes to the same. -/

namespace Sys2Proof.Machine

/-! ### The next state as a function -/

/-- The state `exec` answers (`exec_eq_next`). The five stores to data memory are written without the check of their
index, which always passes; so for each constructor this computes to updates of the state. -/
def execNext (i : Instr) (s : State) : State :=
  match i with
  | .wrm => advance 1 (s.setDm (s.dm.write s.sel.toNat s.acc))
  | .wr0 => advance 1 (s.setSt (s.st.write (statIndex 0 s) s.acc))
  | .wr1 => advance 1 (s.setSt (s.st.write (statIndex 1 s) s.acc))
  | .wr2 => advance 1 (s.setSt (s.st.write (statIndex 2 s) s.acc))
  | .wr3 => advance 1 (s.setSt (s.st.write (statIndex 3 s) s.acc))
  | i => match exec i s with
    | .next t => t
    | .fault _ | .refused _ => s

theorem exec_eq_next (i : Instr) (s : State) : exec i s = .next (execNext i s) := by
  cases i with
  | wrm => exact exec_wrm s
  | wr0 => exact exec_wr0 s
  | wr1 => exact exec_wr1 s
  | wr2 => exact exec_wr2 s
  | wr3 => exact exec_wr3 s
  | _ => rfl

theorem step_eq_next (s : State) : step s = .next (execNext (fetchedInstr s) s) := exec_eq_next (fetchedInstr s) s

theorem eq_execNext_of_exec {i : Instr} {s t : State} (h : exec i s = .next t) : t = execNext i s := by
  rw [exec_eq_next] at h
  cases h
  rfl

theorem exec_of_execNext {i : Instr} {s t : State} (h : execNext i s = t) : exec i s = .next t := by
  rw [exec_eq_next, h]

section
variable {i : Instr} (s : State)

/-! ### The program counter (10_state section 3) -/

theorem execNext_pc (h : i.mayTransfer = false) : (execNext i s).pc = s.pc + BitVec.ofNat 12 i.length := by
  cases i with
  | jcn | jun | jms | isz | bbl => nomatch h
  | _ => rfl

theorem add_one_ne_zero_iff (v : Nibble) : v + 1 ≠ 0 ↔ v ≠ 15 := by decide +revert

theorem execNext_isz_pc (r : Nibble) (a : Byte) :
    (execNext (.isz r a) s).pc = if reg r s = 15 then s.pc + 2 else shortTarget a s := by
  show (if reg r s + 1 ≠ 0 then shortTarget a s else s.pc + 2) = _
  simp only [add_one_ne_zero_iff, ite_not]

/-! ### The accumulator and data memory -/

theorem execNext_acc (h : i.writesAcc = false) : (execNext i s).acc = s.acc := by
  cases i with
  | add | sub | adm | sbm | iac | dac | ral | rar | cma | clb | tcc | tcs | daa | kbp => nomatch h
  | ld | xch | bbl | ldm | rdm | rdr | rd0 | rd1 | rd2 | rd3 => nomatch h
  | _ => rfl

theorem execNext_dm (h : i ≠ .wrm) : (execNext i s).dm = s.dm := by
  cases i with
  | wrm => contradiction
  | _ => rfl

theorem execNext_st (h0 : i ≠ .wr0) (h1 : i ≠ .wr1) (h2 : i ≠ .wr2) (h3 : i ≠ .wr3) : (execNext i s).st = s.st := by
  cases i with
  | wr0 | wr1 | wr2 | wr3 => contradiction
  | _ => rfl

/-! ### The carry (10_state R22) -/

theorem execNext_cy (h : i.writesCarry = false) : (execNext i s).cy = s.cy := by
  cases i with
  | add | sub | adm | sbm | iac | dac | ral | rar | clb | tcc | tcs | daa | clc | cmc | stc => nomatch h
  | _ => rfl

/-- CLC and STC write a constant carry where `CARRY_OPS` lets them, and keep the old one where it does not. -/
theorem carryOp_setCy (v c : Bit) :
    carryOp v (s.setCy c) = carryOp v s ∨ (carryOp v s).cy = s.cy ∧ carryOp v (s.setCy c) = (carryOp v s).setCy c := by
  unfold carryOp carryOpValue
  rw [setCy_config]
  cases s.config.carryOps with
  | historical => exact .inl rfl
  | nop => exact .inr ⟨rfl, rfl⟩

/-- An instruction that does not read the carry writes one that is independent of the old, or keeps the old one. -/
theorem execNext_setCy (h : i.readsCarry = false) (c : Bit) :
    execNext i (s.setCy c) = execNext i s ∨
      (execNext i s).cy = s.cy ∧ execNext i (s.setCy c) = (execNext i s).setCy c := by
  cases i with
  | add | sub | adm | sbm | ral | rar | tcc | tcs | daa | cmc | jcn => nomatch h
  | iac | dac | clb => exact .inl rfl
  | clc => exact (carryOp_setCy s 0 c).imp (congrArg (advance 1)) (And.imp_right (congrArg (advance 1)))
  | stc => exact (carryOp_setCy s 1 c).imp (congrArg (advance 1)) (And.imp_right (congrArg (advance 1)))
  | _ => exact .inr ⟨rfl, rfl⟩

/-! ### The index registers (10_state R25) -/

section
variable {q : Nibble}

theorem execNext_reg (h : i.writesReg ≠ some q) : reg q (execNext i s) = reg q s := by
  cases i with
  | fim | fin | xch | inc | isz => exact reg_setReg_other _ _ fun e => h (congrArg some e.symm)
  | _ => rfl

/-- FIM and FIN overwrite a register without reading it. -/
theorem execNext_setReg_written (hr : i.readsReg ≠ some q) (hw : i.writesReg = some q) (v : Nibble) :
    execNext i (setReg q v s) = execNext i s := by
  cases i with
  | fim p d =>
    cases hw
    exact congrArg (advance 2) (setReg_setReg_same _ _ _ s)
  | fin p =>
    cases hw
    have haddress := finAddress_setReg v s fun e => hr (congrArg some e.symm)
    show advance 1 (setReg _ (lowNibble (pmFetch (finAddress (setReg _ v s)) s)) (setReg _ v s)) = _
    rw [haddress, setReg_setReg_same]
    rfl
  | xch | inc | isz => exact absurd hw hr
  | _ => nomatch hw

theorem execNext_setReg_other (hr : i.readsReg ≠ some q) (hw : i.writesReg ≠ some q) (v : Nibble) :
    execNext i (setReg q v s) = setReg q v (execNext i s) := by
  have hne {r : Nibble} (h : some r ≠ some q) : r ≠ q := fun e => h (congrArg some e)
  have hread {r : Nibble} (h : some r ≠ some q) : reg r (setReg q v s) = reg r s := reg_setReg_other v s (hne h)
  cases i with
  | add r => exact congrArg (fun m => advance 1 (aluWrite (addSum m s) (setReg q v s))) (hread hr)
  | sub r => exact congrArg (fun m => advance 1 (aluWrite (subDiff m s) (setReg q v s))) (hread hr)
  | ld r => exact congrArg (fun m => advance 1 ((setReg q v s).setAcc m)) (hread hr)
  | xch r =>
    show advance 1 (setReg r s.acc ((setReg q v s).setAcc (reg r (setReg q v s)))) = _
    rw [hread hr]
    exact congrArg (advance 1) (setReg_comm (hne hr) s.acc v (s.setAcc (reg r s)))
  | inc r =>
    show advance 1 (setReg r (reg r (setReg q v s) + 1) (setReg q v s)) = _
    rw [hread hr, setReg_comm (hne hr)]
    rfl
  | isz r a =>
    show (setReg r (reg r (setReg q v s) + 1) (setReg q v s)).setPc
      (if reg r (setReg q v s) + 1 ≠ 0 then shortTarget a s else s.pc + 2) = _
    rw [hread hr, setReg_comm (hne hr)]
    rfl
  | fim p d => exact (eq_execNext_of_exec (exec_fim_setReg v s d (hne hw).symm)).symm
  | fin p => exact (eq_execNext_of_exec (exec_fin_setReg v s (hne hw).symm (hne hr).symm)).symm
  | src p => exact (eq_execNext_of_exec (exec_src_setReg v s (hne hr).symm)).symm
  | jin p => exact (eq_execNext_of_exec (exec_jin_setReg v s (hne hr).symm)).symm
  | _ => rfl

end

/-! ### The command-control latch (10_state R29) -/

theorem execNext_cc (h : i ≠ .dcl) : (execNext i s).cc = s.cc := by
  cases i with
  | dcl => contradiction
  | _ => rfl

theorem execNext_setCc (h : i ≠ .dcl) (v : Nibble) : execNext i (s.setCc v) = (execNext i s).setCc v := by
  cases i with
  | dcl => contradiction
  | _ => rfl

/-! ### The call stack (10_state R33) -/

theorem execNext_stack (hjms : ∀ a, i ≠ .jms a) (hbbl : ∀ d, i ≠ .bbl d) :
    (execNext i s).stack = s.stack ∧ (execNext i s).sp = s.sp := by
  cases i with
  | jms a => exact absurd rfl (hjms a)
  | bbl d => exact absurd rfl (hbbl d)
  | _ => exact ⟨rfl, rfl⟩

theorem execNext_setStack (hjms : ∀ a, i ≠ .jms a) (hbbl : ∀ d, i ≠ .bbl d) (v : Vector Addr 3) (n : Fin 4) :
    execNext i ((s.setStack v).setSp n) = ((execNext i s).setStack v).setSp n := by
  cases i with
  | jms a => exact absurd rfl (hjms a)
  | bbl d => exact absurd rfl (hbbl d)
  | _ => rfl

/-! ### The ports (20_memory section 3) -/

theorem execNext_dmport (h : i ≠ .wmp) : (execNext i s).dmport = s.dmport := by
  cases i with
  | wmp => contradiction
  | _ => rfl

theorem execNext_setDmport (h : i ≠ .wmp) (v : Nibble) : execNext i (s.setDmport v) = (execNext i s).setDmport v := by
  cases i with
  | wmp => contradiction
  | _ => rfl

theorem execNext_romport (h : i ≠ .wrr) : (execNext i s).romport = s.romport := by
  cases i with
  | wrr => contradiction
  | _ => rfl

theorem execNext_setRomport (hwrr : i ≠ .wrr) (hrdr : i ≠ .rdr) (v : Nibble) :
    execNext i (s.setRomport v) = (execNext i s).setRomport v := by
  cases i with
  | wrr | rdr => contradiction
  | _ => rfl

/-! ### The TEST input (10_state R44) -/

/-- A condition that does not sample TEST has its invert bit set, or its signal-test bit clear. -/
theorem jcnTaken_of_not_samples {c : Nibble} (h : jcnSamplesTest c = false) (test test' : Bit) :
    jcnTaken c test s = jcnTaken c test' s := by
  unfold jcnSamplesTest at h
  unfold jcnTaken
  cases hinvert : jcnInvert c <;> simp_all

theorem execNext_testDraws (h : ∀ c a, i = .jcn c a → jcnSamplesTest c = false) :
    (execNext i s).testDraws = s.testDraws := by
  cases i with
  | jcn c a => exact if_neg (Bool.eq_false_iff.1 (h c a rfl))
  | _ => rfl

theorem execNext_setTestDraws (h : ∀ c a, i = .jcn c a → jcnSamplesTest c = false) (k : Nat) :
    execNext i (s.setTestDraws k) = (execNext i s).setTestDraws k := by
  cases i with
  | jcn c a =>
    show (sampleTest (jcnSamplesTest c) (s.setTestDraws k)).setPc
      (if jcnTaken c (Config.testInput k) s then shortTarget a s else s.pc + 2) = _
    rw [h c a rfl, jcnTaken_of_not_samples s (h c a rfl) (Config.testInput k) (testValue s)]
    rfl
  | _ => rfl

/-! ### The parameters (10_state R45) -/

theorem execNext_config : (execNext i s).config = s.config := by
  cases i <;> rfl

end

/-! ### The statements -/

/-- Settles O10: the advance is the instruction's length; the five transfers write the target that their rule names. -/
theorem pcAdvancesOrTransfers : Obligations.PcAdvancesOrTransfers := by
  refine fun i s => ⟨_, exec_eq_next i s, fun h => ?_, ?_, ?_, ?_, ?_⟩
  · simp [execNext_pc s h]
  · rintro a (rfl | rfl) <;> rfl
  · rintro d rfl; rfl
  · rintro c a rfl; rfl
  · rintro r a rfl
    exact execNext_isz_pc s r a

/-- Settles O11: by `execNext_cy` for the writers and `execNext_setCy` for the readers. -/
theorem carryReadersAndWriters : Obligations.CarryReadersAndWriters := by
  refine ⟨fun i s h => ⟨_, exec_eq_next i s, execNext_cy s h⟩, fun i s c h => ?_, rfl⟩
  refine ⟨_, _, exec_eq_next i s, exec_eq_next i (s.setCy c), ?_⟩
  obtain hsame | ⟨hkept, hpassed⟩ := execNext_setCy s h c
  · rw [hsame]
    exact ⟨rfl, .inl rfl⟩
  · rw [hpassed]
    exact ⟨rfl, .inr ⟨hkept, rfl⟩⟩

/-- Settles O12: each frame is that of the next state. -/
theorem accumulatorAndMemoryWriters : Obligations.AccumulatorAndMemoryWriters := fun i s =>
  ⟨_, exec_eq_next i s, execNext_acc s, execNext_dm s, execNext_st s⟩

/-- Settles O13: a register that is not read commutes with the instruction, or is overwritten by it. -/
theorem indexRegisterAccess : Obligations.IndexRegisterAccess := by
  refine fun i s => ⟨_, exec_eq_next i s, fun _ => execNext_reg s, fun q v hr => exec_of_execNext ?_⟩
  by_cases hw : i.writesReg = some q
  · rw [if_pos hw, execNext_setReg_written s hr hw]
  · rw [if_neg hw, execNext_setReg_other s hr hw]

/-- Settles O15: all but DCL keep the latch and commute with it; DCL overwrites it. -/
theorem commandControlAccess : Obligations.CommandControlAccess :=
  ⟨fun i s h => ⟨_, exec_eq_next i s, execNext_cc s h, fun v => exec_of_execNext (execNext_setCc s h v)⟩,
    exec_dcl, fun _ _ => rfl, fun _ => rfl, rfl⟩

/-- Settles O17: all but JMS and BBL keep the slots and the pointer and commute with them. -/
theorem stackOnlyJmsBbl : Obligations.StackOnlyJmsBbl := fun i s hjms hbbl =>
  ⟨_, exec_eq_next i s, (execNext_stack s hjms hbbl).1, (execNext_stack s hjms hbbl).2,
    fun v n => exec_of_execNext (execNext_setStack s hjms hbbl v n)⟩

/-- Settles O19: the three instructions by their next states; the others keep the ports and commute with those they do not
read. -/
theorem portAccess : Obligations.PortAccess :=
  ⟨exec_wrr, exec_wmp, exec_rdr,
    fun i s h => ⟨_, exec_eq_next i s, execNext_dmport s h, fun v => exec_of_execNext (execNext_setDmport s h v)⟩,
    fun i s h => ⟨_, exec_eq_next i s, execNext_romport s h,
      fun hrdr v => exec_of_execNext (execNext_setRomport s h hrdr v)⟩,
    fun _ => rfl⟩

/-- Settles O20: without a signal test JCN's decision is the same for every draw; the other instructions keep the counter
and commute with it. -/
theorem testInputOnlyInJcn : Obligations.TestInputOnlyInJcn := fun i s h =>
  ⟨_, exec_eq_next i s, execNext_testDraws s h, fun k => exec_of_execNext (execNext_setTestDraws s h k)⟩

end Sys2Proof.Machine
end

section
/-! PROOF. The remaining accumulator instructions (40_alu R127, R128, R133 to R137). -/

namespace Sys2Proof.Machine

/-! ### Rotates are inverse to each other (R128) -/

theorem rarAcc_ral (v : Nibble) (c : Bit) : rarAcc (ralAcc v c) (ralCarry v) = v := by decide +revert

theorem rarCarry_ral (v : Nibble) (c : Bit) : rarCarry (ralAcc v c) = c := by decide +revert

theorem ralAcc_rar (v : Nibble) (c : Bit) : ralAcc (rarAcc v c) (rarCarry v) = v := by decide +revert

theorem ralCarry_rar (v : Nibble) (c : Bit) : ralCarry (rarAcc v c) = c := by decide +revert

/-- Settles O25: the second rotate reads back the accumulator and the carry that the first one rotated. -/
theorem rotateRoundTrip : Obligations.RotateRoundTrip := by
  refine fun s => ⟨⟨_, exec_ral s, ?_⟩, ⟨_, exec_rar s, ?_⟩⟩
  · rw [exec_rar]
    simp only [advance_acc, advance_cy, setCy_acc, setCy_cy, setAcc_acc, rarAcc_ral, rarCarry_ral]
    simp [advance, State.setPc, State.setAcc, State.setCy, BitVec.add_assoc]
  · rw [exec_ral]
    simp only [advance_acc, advance_cy, setCy_acc, setCy_cy, setAcc_acc, ralAcc_rar, ralCarry_rar]
    simp [advance, State.setPc, State.setAcc, State.setCy, BitVec.add_assoc]

/-! ### Decimal adjust (R133) -/

theorem daaAdjusts_iff (s : State) : daaAdjusts s = true ↔ s.cy = 1 ∨ s.acc.toNat > 9 := by
  simp [daaAdjusts]

/-- Settles O27: an adjustment is the sum `acc + 6`, masked and with its own carry; without one both are kept. -/
theorem decimalAdjust : Obligations.DecimalAdjust := by
  refine fun s => ⟨_, exec_daa s, fun h => ?_, fun h => ?_, rfl⟩ <;> rw [← daaAdjusts_iff] at h
  · have hacc : daaAcc s = mask4 (s.acc.toNat + 6 : Nat) := if_pos h
    have hcy : daaCarry s = commonCarry (s.acc.toNat + 6 : Nat) := if_pos h
    exact ⟨hacc ▸ mask4_natCast_toNat _, hcy ▸ commonCarry_natCast_toNat _⟩
  · exact ⟨if_neg h, if_neg h⟩

/-! ### Keyboard process (R134) -/

theorem kbpTable_power : ∀ v : Nibble, ∀ k < 4, v.toNat = 2 ^ k → (kbpTable v).toNat = k + 1 := by decide

theorem kbpTable_other : ∀ v : Nibble, (∀ k < 4, v.toNat ≠ 2 ^ k) → v ≠ 0 → kbpTable v = 15 := by decide

/-- Settles O28: the table's entries, by the powers of two. -/
theorem keyboardProcess : Obligations.KeyboardProcess := fun s =>
  ⟨_, exec_kbp s, rfl, congrArg kbpTable, kbpTable_power s.acc, kbpTable_other s.acc⟩

/-! ### Carry instructions (R135 to R137) -/

theorem carryOp_historical (v : Bit) {s : State} (h : s.config.carryOps = .historical) : carryOp v s = s.setCy v := by
  rw [carryOp, carryOpValue_eq, if_pos h]

theorem carryOp_nop (v : Bit) {s : State} (h : s.config.carryOps = .nop) : carryOp v s = s := by
  rw [carryOp, carryOpValue_eq, if_neg (by simp [h])]
  rfl

theorem complement_bit_toNat (c : Bit) : (~~~c).toNat = 1 - c.toNat := by decide +revert

/-- Settles O29: under `historical` a carry instruction writes its carry, under `nop` it changes nothing. -/
theorem carryInstructions : Obligations.CarryInstructions := by
  refine fun s => ⟨fun h => ⟨?_, ?_, ?_⟩, fun h i hi => ?_⟩
  · exact exec_of_execNext (congrArg (advance 1) (carryOp_historical 0 h))
  · refine ⟨_, exec_cmc s, ?_, ?_⟩ <;> rw [carryOp_historical _ h]
    · exact complement_bit_toNat s.cy
    · rfl
  · exact exec_of_execNext (congrArg (advance 1) (carryOp_historical 1 h))
  · rcases hi with rfl | rfl | rfl <;> exact exec_of_execNext (congrArg (advance 1) (carryOp_nop _ h))

end Sys2Proof.Machine
end

section
/-! PROOF. The register and addressing instructions (41_registers_addressing R161 to R169), and the short target
(30_encoding R99). -/

namespace Sys2Proof.Machine

/-! ### Operand fields as arithmetic -/

theorem lowNibble_toNat (b : Byte) : (lowNibble b).toNat = b.toNat % 16 := by
  simp [lowNibble]

theorem finAddress_eq (s : State) : finAddress s = BitVec.ofNat 12 (reg 0 s).toNat := by
  apply BitVec.eq_of_toNat_eq
  simp [finAddress]

theorem srcSelector_toNat (v : Nibble) (s : State) : (srcSelector v s).toNat = v.toNat / 2 ^ s.config.srcShift := by
  have hv : v.toNat % 256 = v.toNat := Nat.mod_eq_of_lt (v.isLt.trans (by decide))
  simp [srcSelector, Nat.shiftRight_eq_div_pow, hv]

theorem withBank_toNat (v : Nibble) (sel : Byte) : (withBank v sel).toNat = v.toNat * 16 + sel.toNat % 16 := by
  rw [withBank, BitVec.toNat_append, ← Nat.shiftLeft_add_eq_or_of_lt (sel.extractLsb' 0 4).isLt, Nat.shiftLeft_eq]
  simp

/-- The short target keeps the page of the address after the two-word instruction (R99, R191). -/
theorem shortTarget_toNat (a : Byte) (s : State) :
    (shortTarget a s).toNat = (s.pc.toNat + 2) % 4096 / 256 * 256 + a.toNat := by
  have hpage : ((s.pc + 2).extractLsb' 8 4).toNat = (s.pc.toNat + 2) % 4096 / 256 := by
    rw [BitVec.extractLsb'_toNat, BitVec.toNat_add, Nat.shiftRight_eq_div_pow]
    show (s.pc.toNat + 2) % 4096 / 256 % 16 = _
    omega
  rw [shortTarget, append_toNat, hpage]

theorem add_one_toNat (v : Nibble) : (v + 1).toNat = (v.toNat + 1) % 16 := BitVec.toNat_add v 1

/-! ### The instructions -/

/-- Settles O30: both write one register, the low nibble of a byte; FIN's byte is the one at `x[0]`. -/
theorem fetchIntoPair : Obligations.FetchIntoPair := by
  refine fun p s => ⟨fun d => ⟨_, exec_fim s p d, ?_, fun q hq => reg_setReg_other _ s hq, rfl⟩,
    _, exec_fin s p, ?_, fun q hq => reg_setReg_other _ s hq, rfl⟩
  · rw [reg_advance, reg_setReg_same, lowNibble_toNat]
  · rw [reg_advance, reg_setReg_same, lowNibble_toNat, finAddress_eq]

/-- Settles O31: the new selectors as arithmetic. -/
theorem selectorInstructions : Obligations.SelectorInstructions := fun p s =>
  ⟨⟨_, exec_src s p, srcSelector_toNat _ s, rfl⟩, _, exec_jin s p, withBank_toNat _ s.sel, rfl⟩

/-- Settles O33: the loads are the stated updates. -/
theorem accumulatorLoads : Obligations.AccumulatorLoads := fun s => ⟨exec_ld s, exec_ldm s⟩

/-- Settles O34: the increment wraps, so the result is 0 exactly where the register held 15. -/
theorem incrementRegister : Obligations.IncrementRegister := by
  intro r s
  have hreg : (reg r (setReg r (reg r s + 1) s)).toNat = ((reg r s).toNat + 1) % 16 := by
    rw [reg_setReg_same, add_one_toNat]
  refine ⟨⟨_, exec_inc s r, hreg, fun q hq => reg_setReg_other _ s hq, rfl⟩,
    fun a => ⟨_, exec_eq_next (.isz r a) s, hreg, fun q hq => reg_setReg_other _ s hq, rfl, ?_⟩⟩
  have hiff : reg r s = 15 ↔ (reg r s).toNat = 15 := BitVec.toNat_inj.symm
  rw [execNext_isz_pc, apply_ite BitVec.toNat, shortTarget_toNat, BitVec.toNat_add]
  simp only [hiff]
  rfl

end Sys2Proof.Machine
end

section
/-! PROOF. The call stack (10_state R35 to R37; 42_control_transfer R193, R194), and JCN (R195). -/

namespace Sys2Proof.Machine

/-! ### Push and pop (R36, R37) -/

section
variable (v : Addr) {s : State}

theorem push_stack_of_lt (h : s.sp.val < 3) : (push v s).stack = s.stack.set s.sp.val v h := pushSlots_of_lt v s.stack h

theorem push_stack_of_full (h : s.sp.val = 3) : (push v s).stack = #v[s.stack[1], s.stack[2], v] :=
  pushSlots_of_full v s.stack h

theorem push_sp_of_lt (h : s.sp.val < 3) : (push v s).sp.val = s.sp.val + 1 := (pushPointer_val s.sp).trans (by omega)

theorem push_sp_of_full (h : s.sp.val = 3) : (push v s).sp.val = 3 := (pushPointer_val s.sp).trans (by omega)

theorem popRest_stack_of_pos (h : 0 < s.sp.val) : (popRest s).stack = s.stack.set (s.sp.val - 1) 0 :=
  popSlots_of_pos s.stack h

theorem popRest_sp : (popRest s).sp.val = s.sp.val - 1 := popPointer_val s.sp

/-- What was pushed is popped, whether the stack was full or not. -/
theorem popValue_push (s : State) : popValue (push v s) = v := by
  obtain h | h : s.sp.val < 3 ∨ s.sp.val = 3 := by omega
  · rw [popValue_of_pos (by rw [push_sp_of_lt v h]; omega)]
    simp only [push_stack_of_lt v h, push_sp_of_lt v h, Nat.add_sub_cancel, Vector.getElem_set_self]
  · rw [popValue_of_pos (by rw [push_sp_of_full v h]; omega)]
    simp only [push_stack_of_full v h, push_sp_of_full v h]
    rfl

/-- With room on a clear stack a pop undoes a push: the slot it clears held 0 before. -/
theorem popRest_push (h : s.sp.val < 3) (hclear : s.stackClear) : popRest (push v s) = s := by
  have hsp : popPointer (push v s).sp = s.sp := Fin.ext (by rw [popPointer_val, push_sp_of_lt v h, Nat.add_sub_cancel])
  have hstack : popSlots (push v s).stack (push v s).sp = s.stack := by
    rw [popSlots_of_pos _ (by rw [push_sp_of_lt v h]; omega)]
    refine Vector.ext fun i hi => ?_
    simp only [push_stack_of_lt v h, push_sp_of_lt v h, Nat.add_sub_cancel, Vector.set_set, Vector.getElem_set]
    split
    · rename_i heq
      exact (hclear ⟨i, hi⟩ heq.le).symm
    · rfl
  show (s.setStack (popSlots (push v s).stack (push v s).sp)).setSp (popPointer (push v s).sp) = s
  rw [hstack, hsp]
  rfl

theorem push_stackClear (hclear : s.stackClear) : (push v s).stackClear := by
  intro i hi
  obtain h | h : s.sp.val < 3 ∨ s.sp.val = 3 := by omega
  · rw [push_sp_of_lt v h] at hi
    simp only [push_stack_of_lt v h, Vector.getElem_set_ne h i.isLt (by omega)]
    exact hclear i (by omega)
  · rw [push_sp_of_full v h] at hi
    omega

theorem popRest_stackClear (hclear : s.stackClear) : (popRest s).stackClear := by
  intro i hi
  obtain h | h : s.sp.val = 0 ∨ 0 < s.sp.val := by omega
  · rw [popRest_of_empty h]
    exact hclear i (by omega)
  · rw [popRest_sp] at hi
    simp only [popRest_stack_of_pos h, Vector.getElem_set]
    split
    · rfl
    · exact hclear i (by omega)

/-- Three pushes on an empty stack fill it. -/
theorem push_three (a b c : Addr) (h : s.sp.val = 0) :
    push c (push b (push a s)) = (s.setStack #v[a, b, c]).setSp 3 := by
  have hsp : s.sp = 0 := Fin.ext h
  have hstack : ((s.stack.set 0 a).set 1 b).set 2 c = #v[a, b, c] := by
    refine Vector.ext fun i hi => ?_
    match i, hi with
    | 0, _ | 1, _ | 2, _ => simp
  rw [← hstack]
  simp [push, hsp, pushSlots, pushPointer, State.setStack, State.setSp]

/-- From an empty stack the first of four pushes is lost. -/
theorem push_four (a b c d : Addr) (h : s.sp.val = 0) :
    push d (push c (push b (push a s))) = push d (push c (push b s)) := by
  rw [push_three a b c h, push_three b c d h]
  rfl

end

/-! ### Call and return -/

/-- Settles O36: a push writes the slot above the live entries, or moves the full stack down. -/
theorem callPushesReturnAddress : Obligations.CallPushesReturnAddress := by
  refine fun a s => ⟨_, exec_jms s a, rfl, rfl, fun h => ⟨push_sp_of_lt (s.pc + 2) h, ?_, fun i hi => ?_⟩,
    fun h => ⟨push_sp_of_full (s.pc + 2) h, ?_⟩⟩
  · simp only [setPc_stack, push_stack_of_lt _ h, Vector.getElem_set_self]
  · simp only [setPc_stack, push_stack_of_lt _ h, Vector.getElem_set_ne h i.isLt hi.symm]
  · rw [setPc_stack, push_stack_of_full _ h]
    exact ⟨rfl, rfl, rfl⟩

/-- Settles O37: a pop clears the top slot, or leaves the empty stack alone. -/
theorem returnPopsAndLoads : Obligations.ReturnPopsAndLoads := by
  refine fun d s => ⟨_, exec_bbl s d, rfl, rfl, fun h => ⟨popValue_of_pos h, popRest_sp, ?_, fun i hi => ?_⟩,
    fun h => ?_⟩
  · simp only [setAcc_stack, setPc_stack, popRest_stack_of_pos h, Vector.getElem_set_self]
  · simp only [setAcc_stack, setPc_stack, popRest_stack_of_pos h, Vector.getElem_set_ne _ i.isLt hi.symm]
  · rw [popRest_of_empty h]
    exact ⟨popValue_of_empty h, rfl, rfl⟩

/-- Settles O38: the pop that BBL makes undoes the push that JMS made. -/
theorem callThenReturn : Obligations.CallThenReturn := by
  refine fun a d s h hclear => ⟨_, exec_jms s a, ?_⟩
  rw [exec_bbl]
  have hrest : popRest ((push (s.pc + 2) s).setPc a) = s.setPc a := congrArg (State.setPc a) (popRest_push _ h hclear)
  have hvalue : popValue ((push (s.pc + 2) s).setPc a) = s.pc + 2 := popValue_push _ s
  rw [hrest, hvalue]
  rfl

/-- Settles O39: the oldest push is lost, and each pop undoes one of the other three. -/
theorem stackLifoWithSaturation : Obligations.StackLifoWithSaturation := by
  intro a b c d s h hclear
  have hclear1 := push_stackClear b hclear
  have hclear2 := push_stackClear c hclear1
  have h1 : (push b s).sp.val = 1 := (push_sp_of_lt b (by omega)).trans (by omega)
  have h2 : (push c (push b s)).sp.val = 2 := (push_sp_of_lt c (by omega)).trans (by omega)
  simp only [push_four a b c d h, popRest_push d (by omega) hclear2, popRest_push c (by omega) hclear1,
    popRest_push b (by omega) hclear, popValue_push, popRest_of_empty h, popValue_of_empty h]
  exact ⟨trivial, trivial, trivial, hclear 0 (by omega), trivial⟩

/-! ### The stack invariant (R35) -/

theorem execNext_stackClear (i : Instr) {s : State} (h : s.stackClear) : (execNext i s).stackClear := by
  cases i with
  | jms => exact push_stackClear _ h
  | bbl => exact popRest_stackClear h
  | _ => exact h

/-- Settles O49: only JMS and BBL touch the stack, by a push and a pop. -/
theorem stepKeepsStackClear : Obligations.StepKeepsStackClear := fun _ _ hs h =>
  eq_execNext_of_exec h ▸ execNext_stackClear _ hs

/-! ### JCN (R195) -/

theorem jcnInvert_eq_true_iff (c : Nibble) : jcnInvert c = true ↔ 8 ≤ c.toNat := by decide +revert

theorem jcnSamplesTest_iff (c : Nibble) : jcnSamplesTest c = true ↔ c.toNat < 8 ∧ c.toNat % 2 = 1 := by decide +revert

theorem jcnBits (c : Nibble) : (c.getLsbD 2 = true ↔ c.toNat / 4 % 2 = 1) ∧
    (c.getLsbD 1 = true ↔ c.toNat / 2 % 2 = 1) ∧ (c.getLsbD 0 = true ↔ c.toNat % 2 = 1) := by
  decide +revert

theorem jcnTaken_iff (c : Nibble) (test : Bit) (s : State) : jcnTaken c test s = true ↔
    c.toNat < 8 ∧ ((c.toNat / 4 % 2 = 1 ∧ s.acc = 0) ∨ (c.toNat / 2 % 2 = 1 ∧ s.cy = 1) ∨
      (c.toNat % 2 = 1 ∧ test = 0)) := by
  obtain ⟨h2, h1, h0⟩ := jcnBits c
  by_cases h : 8 ≤ c.toNat
  · simp [jcnTaken, (jcnInvert_eq_true_iff c).2 h, h]
  · have hinvert : jcnInvert c = false := Bool.eq_false_iff.2 fun e => h ((jcnInvert_eq_true_iff c).1 e)
    simp only [jcnTaken, hinvert, Bool.false_eq_true, if_false, Bool.or_eq_true, Bool.and_eq_true, beq_iff_eq, h2, h1,
      h0, Nat.lt_of_not_le h, true_and, or_assoc]

/-- Settles O40: the condition's bits as arithmetic, and the short target. -/
theorem jumpOnCondition : Obligations.JumpOnCondition := by
  refine fun c a s => ⟨_, exec_jcn s c a, rfl, fun h => ?_, fun h => ?_, ?_⟩
  · rw [← jcnTaken_iff] at h
    rw [setPc_pc, testValue, if_pos h, shortTarget_toNat]
  · rw [← jcnTaken_iff] at h
    rw [setPc_pc, testValue, if_neg h, BitVec.toNat_add]
    rfl
  · simp only [← jcnSamplesTest_iff]
    rfl

end Sys2Proof.Machine
end

section
/-! PROOF. The arrays, the parameters and the form of the memories under every event (10_state R39 to R45; 20_memory R66,
R67, R80 to R83; 70_reset R260, R261). -/

namespace Sys2Proof.Machine

/-! ### The arrays (R66, R67) -/

theorem memWrite_of_lt {i : Nat} (h : i < dmSize) (v : Nibble) (s : State) :
    memWrite i v s = .next (s.setDm (s.dm.write i v)) := if_pos h

theorem statWrite_of_lt {j : Nat} (h : j < stSize) (v : Nibble) (s : State) :
    statWrite j v s = .next (s.setSt (s.st.write j v)) := if_pos h

/-- Settles O46: the read-over-write rules inside the arrays, the other branch outside; every instruction completes. -/
theorem dataArrayBounds : Obligations.DataArrayBounds := by
  refine ⟨fun s v hs => ⟨fun i hi => ?_, fun j hj => ?_⟩, fun s v => ⟨fun i hi => ?_, fun j hj => ?_⟩, fun i s e => ?_⟩
  · exact ⟨_, memWrite_of_lt hi v s, memRead_write_same v hs hi, fun k hk => memRead_write_other v hs hk, rfl⟩
  · exact ⟨_, statWrite_of_lt hj v s, statRead_write_same v hs hj, fun k hk => statRead_write_other v hs hk, rfl⟩
  · exact ⟨if_neg hi.not_gt, if_neg hi.not_gt⟩
  · exact ⟨if_neg hj.not_gt, if_neg hj.not_gt⟩
  · rw [exec_eq_next]
    exact nofun

/-! ### Instructions keep the form of the memories -/

theorem setDm_wf {s : State} {i : Nat} (v : Nibble) (h : s.wf) (hi : i < dmSize) : (s.setDm (s.dm.write i v)).wf := by
  obtain ⟨hlow, hhigh, hpm, hdm, hst⟩ := h
  exact ⟨hlow, hhigh, hpm, Memory.write_wf v hdm hi, hst⟩

theorem setSt_wf {s : State} {j : Nat} (v : Nibble) (h : s.wf) (hj : j < stSize) : (s.setSt (s.st.write j v)).wf := by
  obtain ⟨hlow, hhigh, hpm, hdm, hst⟩ := h
  exact ⟨hlow, hhigh, hpm, hdm, Memory.write_wf v hst hj⟩

theorem execNext_wf (i : Instr) {s : State} (h : s.wf) : (execNext i s).wf := by
  cases i with
  | wrm => exact setDm_wf s.acc h (selector_lt s)
  | wr0 | wr1 | wr2 | wr3 => exact setSt_wf s.acc h (statIndex_lt (by decide) s)
  | _ => exact h

/-- Settles O47: the five stores to data memory keep the canonical form, and no other instruction touches a memory. -/
theorem stepKeepsWellFormed : Obligations.StepKeepsWellFormed := fun _ _ hs h =>
  eq_execNext_of_exec h ▸ execNext_wf _ hs

/-! ### Events keep the form of the memories -/

theorem loadFrom_wf (a : Nat) (image : List Byte) {s : State} (h : s.wf) : (loadFrom a image s).wf := by
  induction image generalizing a s with
  | nil => exact h
  | cons b rest ih => exact ih (a + 1) (pmStore_wf a b h)

theorem resetInput_wf {s : State} (h : s.wf) : (resetInput s).wf := by
  obtain ⟨hlow, hhigh, hpm, -, -⟩ := h
  exact ⟨hlow, hhigh, hpm, rfl, rfl⟩

theorem hostSet_dm (i : Fin 256) (v : Nat) (s : State) :
    hostSet (.dm i) v s = .next (s.setDm (s.dm.write i.val (BitVec.ofNat 4 v))) :=
  memWrite_of_lt i.isLt (BitVec.ofNat 4 v) s

theorem hostSet_st (j : Fin 16) (v : Nat) (s : State) :
    hostSet (.st j) v s = .next (s.setSt (s.st.write j.val (BitVec.ofNat 4 v))) :=
  statWrite_of_lt j.isLt (BitVec.ofNat 4 v) s

theorem hostSet_pm {a : Addr} {s : State} (v : Nat) (h : a.toNat < s.config.pmSize) :
    hostSet (.pm a) v s = .next (pmStore a.toNat (BitVec.ofNat 8 v) s) := if_pos h

theorem hostSet_pm_refused {a : Addr} {s : State} (v : Nat) (h : s.config.pmSize ≤ a.toNat) :
    hostSet (.pm a) v s = .refused .hostNoSuchCell := if_neg h.not_gt

theorem eq_pmStore_of_hostSet {a : Addr} {v : Nat} {s t : State} (h : hostSet (.pm a) v s = .next t) :
    t = pmStore a.toNat (BitVec.ofNat 8 v) s := by
  obtain ha | ha := Nat.lt_or_ge a.toNat s.config.pmSize
  · cases (hostSet_pm v ha).symm.trans h
    rfl
  · cases (hostSet_pm_refused v ha).symm.trans h

theorem hostSet_wf {e : Element} {v : Nat} {s t : State} (hs : s.wf) (h : hostSet e v s = .next t) : t.wf := by
  cases e with
  | pm a => exact eq_pmStore_of_hostSet h ▸ pmStore_wf a.toNat _ hs
  | dm i =>
    cases (hostSet_dm i v s).symm.trans h
    exact setDm_wf _ hs i.isLt
  | st j =>
    cases (hostSet_st j v s).symm.trans h
    exact setSt_wf _ hs j.isLt
  | _ =>
    cases h
    exact hs

theorem hostWrite_eq_next {e : Element} {v : Nat} {s t : State} (h : hostWrite e v s = .next t) :
    v < elementRange e ∧ hostSet e v s = .next t := by
  unfold hostWrite at h
  split at h
  · exact ⟨by assumption, h⟩
  · cases h

/-- Settles O48: each event ends in updates that keep the form. -/
theorem eventsKeepWellFormed : Obligations.EventsKeepWellFormed := by
  intro e s t hs h
  cases e with
  | step => exact stepKeepsWellFormed s t hs h
  | resetIn => cases h; exact resetInput_wf hs
  | load image => cases h; exact loadFrom_wf 0 image hs
  | write e v => exact hostSet_wf hs (hostWrite_eq_next h).2
  | direct i => exact eq_execNext_of_exec h ▸ execNext_wf i hs

/-! ### Events keep the parameters (R45) -/

theorem hostSet_config {e : Element} {v : Nat} {s t : State} (h : hostSet e v s = .next t) : t.config = s.config := by
  cases e with
  | pm a => exact eq_pmStore_of_hostSet h ▸ pmStore_config a.toNat _ s
  | dm i =>
    cases (hostSet_dm i v s).symm.trans h
    rfl
  | st j =>
    cases (hostSet_st j v s).symm.trans h
    rfl
  | _ =>
    cases h
    rfl

theorem loadImage_config (image : List Byte) (s : State) : (loadImage image s).config = s.config := by
  rw [loadImage, loadFrom_eq, setPm_config]

/-- Settles O51: instructions, loads and host writes keep `config`, and the reset input takes it over. -/
theorem parametersFixed : Obligations.ParametersFixed := by
  intro e s t h
  cases e with
  | step => exact eq_execNext_of_exec h ▸ execNext_config s
  | resetIn => cases h; rfl
  | load image => cases h; exact loadImage_config image s
  | write e v => exact hostSet_config (hostWrite_eq_next h).2
  | direct i => exact eq_execNext_of_exec h ▸ execNext_config s

/-! ### Construction and reset (R260, R261) -/

/-- Settles O50: no memory lists a cell, and every slot is 0. -/
theorem resetMeetsInvariants : Obligations.ResetMeetsInvariants :=
  ⟨⟨by decide, by decide, rfl, rfl, rfl⟩, fun i _ => stack_reset i⟩

/-- Settles O53: program memory and `PM_SIZE` are those before, and a fetch sees nothing else. -/
theorem resetInputKeepsProgram : Obligations.ResetInputKeepsProgram := fun s => ⟨resetInput s, rfl, fun _ => rfl, rfl⟩

/-! ### Host writes (R82, R83) -/

theorem hostWrite_of_lt {e : Element} {v : Nat} (h : v < elementRange e) (s : State) :
    hostWrite e v s = hostSet e v s := if_pos h

/-- A value in range is read back, and the other elements read as before. -/
theorem hostSet_replaces {e : Element} {v : Nat} {s : State} (hs : s.wf) (hv : v < elementRange e)
    (hcell : ∀ a, e = .pm a → a.toNat < s.config.pmSize) :
    ∃ t, hostSet e v s = .next t ∧ hostRead e t = v ∧ ∀ e', e' ≠ e → hostRead e' t = hostRead e' s := by
  have hmod : v % elementRange e = v := Nat.mod_eq_of_lt hv
  cases e with
  | pc | acc | cy | cc | sp | sel | romport | dmport =>
    exact ⟨_, rfl, hmod, fun e' he => by cases e' <;> simp [hostRead] at he ⊢⟩
  | x i =>
    refine ⟨_, rfl, (congrArg BitVec.toNat (Vector.getElem_set_self i.isLt)).trans hmod, fun e' he => ?_⟩
    cases e' with
    | x j => exact congrArg BitVec.toNat (Vector.getElem_set_ne i.isLt j.isLt fun hij => he (by rw [Fin.ext hij]))
    | _ => rfl
  | stack i =>
    refine ⟨_, rfl, (congrArg BitVec.toNat (Vector.getElem_set_self i.isLt)).trans hmod, fun e' he => ?_⟩
    cases e' with
    | stack j => exact congrArg BitVec.toNat (Vector.getElem_set_ne i.isLt j.isLt fun hij => he (by rw [Fin.ext hij]))
    | _ => rfl
  | pm a =>
    have ha := hcell a rfl
    refine ⟨_, hostSet_pm v ha, ?_, fun e' he => ?_⟩
    · rw [hostRead, pmFetch_pmStore a a.toNat _ hs, if_pos ⟨rfl, ha⟩]
      exact hmod
    · cases e' with
      | pm c =>
        have hc : ¬ (c.toNat = a.toNat ∧ a.toNat < s.config.pmSize) :=
          fun e => he (congrArg Element.pm (BitVec.eq_of_toNat_eq e.1))
        rw [hostRead, pmFetch_pmStore c a.toNat _ hs, if_neg hc, hostRead]
      | _ => rw [pmStore_eq]; rfl
  | dm i =>
    refine ⟨_, hostSet_dm i v s, ?_, fun e' he => ?_⟩
    · exact (congrArg BitVec.toNat (memRead_write_same _ hs i.isLt)).trans hmod
    · cases e' with
      | dm k => exact congrArg BitVec.toNat (memRead_write_other _ hs fun hki => he (by rw [Fin.ext hki]))
      | _ => rfl
  | st j =>
    refine ⟨_, hostSet_st j v s, ?_, fun e' he => ?_⟩
    · exact (congrArg BitVec.toNat (statRead_write_same _ hs j.isLt)).trans hmod
    · cases e' with
      | st k => exact congrArg BitVec.toNat (statRead_write_other _ hs fun hkj => he (by rw [Fin.ext hkj]))
      | _ => rfl

/-- Settles O55: the range is checked first, then program memory's cell. -/
theorem hostWriteReplacesOrRefuses : Obligations.HostWriteReplacesOrRefuses := by
  refine fun e v s hs => ⟨fun h => if_neg h.not_gt, fun hv hcell => ?_, fun hv a he ha => ?_⟩
  · obtain ⟨t, ht, hreads⟩ := hostSet_replaces hs hv hcell
    exact ⟨t, (hostWrite_of_lt hv s).trans ht, hreads⟩
  · subst he
    exact (hostWrite_of_lt hv s).trans (hostSet_pm_refused v ha)

end Sys2Proof.Machine
end

section
/-! PROOF. Runs: the end of a run (70_reset R269) and the run beyond program memory (42_control_transfer R199). -/

namespace Sys2Proof

/-! ### The bytes of a JUN -/

theorem decodeBytes_eq_jun_iff (b1 b2 : Byte) (a : Addr) :
    decodeBytes b1 b2 = .jun a ↔ b1 = 0x4#4 ++ a.extractLsb' 8 4 ∧ b2 = a.extractLsb' 0 8 := by
  constructor
  · intro h
    have hbytes := encode_decodeBytes b1 b2
    rw [h] at hbytes
    cases hw : isTwoWord b1 <;> simp_all [encode]
  · rintro ⟨rfl, rfl⟩
    simp [decodeBytes, target_append]

theorem opcode_four_append (h : Nibble) : 0x4#4 ++ h = (0x40 ||| h.setWidth 8 : Byte) := by decide +revert

namespace Machine

/-! ### The end of a run -/

theorem step_atEnd {s : State} (h : s.atEnd) : step s = .next s := congrArg (fun i => exec i s) h

theorem runSteps_of_fixed {s : State} (h : step s = .next s) (k : Nat) : runSteps k s = .next s := by
  induction k with
  | zero => rfl
  | succ k ih => rw [runSteps_succ k h, ih]

/-- Settles O56: the two bytes are the encoding of JUN, and a JUN to its own address is a fixed point of `step`. -/
theorem jumpToSelfIsFixedPoint : Obligations.JumpToSelfIsFixedPoint := by
  refine ⟨fun s => ?_, fun s k h => runSteps_of_fixed (step_atEnd h) k⟩
  rw [← opcode_four_append]
  exact decodeBytes_eq_jun_iff _ _ _

/-! ### Beyond program memory -/

/-- There a fetch gives 0x00, which is a NOP. -/
theorem step_beyond {s : State} (h : s.config.pmSize ≤ s.pc.toNat) : step s = .next (advance 1 s) :=
  unmappedBytesOnlyAdvance s (.inl (by rw [pmFetch_of_le h]; decide))

theorem advance_advance (m n : Nat) (s : State) : advance n (advance m s) = advance (m + n) s := by
  simp [advance, State.setPc, BitVec.add_assoc, BitVec.ofNat_add]

/-- `pc` rises by 1 with each step and wraps after the last, so it stays beyond `PM_SIZE` until then. -/
theorem runSteps_beyond (k : Nat) {s : State} (h : s.config.pmSize ≤ s.pc.toNat) (hk : s.pc.toNat + k ≤ 4096) :
    runSteps k s = .next (advance k s) := by
  induction k generalizing s with
  | zero => simp [advance, State.setPc]
  | succ k ih =>
    rw [runSteps_succ k (step_beyond h), Nat.add_comm k 1, ← advance_advance]
    obtain rfl | hpos := Nat.eq_zero_or_pos k
    · simp [advance, State.setPc]
    · have hpc : (advance 1 s).pc.toNat = s.pc.toNat + 1 := by
        rw [advance_pc, BitVec.toNat_add]
        show (s.pc.toNat + 1) % 4096 = _
        exact Nat.mod_eq_of_lt (by omega)
      exact ih (by rw [hpc, advance_config]; omega) (by omega)

/-- Settles O57: a run of NOPs. -/
theorem runsNopsBeyondProgramMemory : Obligations.RunsNopsBeyondProgramMemory := fun k _ => runSteps_beyond k

end Machine

end Sys2Proof
end

section
/-! PROOF. The transactions of a step (20_memory R84): how many there are, and that they are all a step exchanges with the
units outside the CORE. -/

namespace Sys2Proof.Machine

/-! ### How many (20_memory section 7) -/

theorem countP_fetchAccesses (s : State) : (fetchAccesses s).countP Access.isPmFetch ≤ 2 ∧
    (fetchAccesses s).countP Access.isData = 0 ∧ (fetchAccesses s).countP Access.isPort = 0 := by
  unfold fetchAccesses
  split <;> exact ⟨List.countP_le_length.trans (by simp), rfl, rfl⟩

theorem instrAccesses_jcn (c : Nibble) (a : Byte) (s : State) :
    instrAccesses (.jcn c a) s = if jcnSamplesTest c then [.testSample (testValue s)] else [] := rfl

/-- An instruction's own rule makes at most one transaction. -/
theorem length_instrAccesses (i : Instr) (s : State) : (instrAccesses i s).length ≤ 1 := by
  cases i with
  | jcn c a =>
    rw [instrAccesses_jcn]
    split <;> simp
  | _ => simp [instrAccesses, statusReadAccess, statusWriteAccess]

/-- Settles O58: the fetches of the bytes, and at most one transaction more. -/
theorem transactionBounds : Obligations.TransactionBounds := by
  intro s
  obtain ⟨hfetch, hdata, hport⟩ := countP_fetchAccesses s
  have hinstr (p : Access → Bool) : (instrAccesses (fetchedInstr s) s).countP p ≤ 1 :=
    List.countP_le_length.trans (length_instrAccesses _ s)
  simp only [stepAccesses, List.countP_append]
  exact ⟨Nat.add_le_add hfetch (hinstr _), by rw [hdata, Nat.zero_add]; exact hinstr _,
    by rw [hport, Nat.zero_add]; exact hinstr _⟩

/-! ### Reads carry the cells' values -/

/-- The status index of a transaction has 4 bits and keeps the index of the character. -/
theorem statIndex_toNat {n : Nat} (h : n < 4) (s : State) : (BitVec.ofNat 4 (statIndex n s)).toNat = statIndex n s :=
  Nat.mod_eq_of_lt (statIndex_lt h s)

theorem stRead_carries_iff {n : Nat} (h : n < 4) (s u : State) (v : Nibble) :
    (Access.stRead (BitVec.ofNat 4 (statIndex n s)) v).carries u = true ↔ v = statRead (statIndex n s) u := by
  rw [Access.carries, statIndex_toNat h, beq_iff_eq]

theorem fetchAccesses_carry (s : State) : ∀ x ∈ fetchAccesses s, x.carries s = true := by
  unfold fetchAccesses
  split <;> simp [Access.carries]

theorem instrAccesses_carry (i : Instr) (s : State) : ∀ x ∈ instrAccesses i s, x.carries s = true := by
  cases i with
  | jcn c a =>
    rw [instrAccesses_jcn]
    split <;> simp [Access.carries]
  | rd0 | rd1 | rd2 | rd3 => simp [instrAccesses, statusReadAccess, stRead_carries_iff]
  | _ => simp [instrAccesses, statusWriteAccess, Access.carries]

/-! ### The writes replayed -/

/-- Two states that agree outside the CORE. -/
def SameUnits (t r : State) : Prop :=
  t.pm = r.pm ∧ t.dm = r.dm ∧ t.st = r.st ∧ t.romport = r.romport ∧ t.dmport = r.dmport ∧ t.testDraws = r.testDraws

theorem foldl_fetchAccesses (s u : State) : (fetchAccesses s).foldl (fun u x => x.apply u) u = u := by
  unfold fetchAccesses
  split <;> rfl

theorem sameUnits_instrAccesses (i : Instr) (s : State) :
    SameUnits (execNext i s) ((instrAccesses i s).foldl (fun u x => x.apply u) s) := by
  cases i with
  | jcn c a =>
    rw [instrAccesses_jcn]
    cases h : jcnSamplesTest c
    · exact ⟨rfl, rfl, rfl, rfl, rfl, by simp [execNext, exec_jcn, h, sampleTest]⟩
    · exact ⟨rfl, rfl, rfl, rfl, rfl, by simp [execNext, exec_jcn, h, sampleTest, Access.apply]⟩
  | wr0 | wr1 | wr2 | wr3 =>
    exact ⟨rfl, rfl, congrArg (s.st.write · s.acc) (statIndex_toNat (by decide) s).symm, rfl, rfl, rfl⟩
  | _ => exact ⟨rfl, rfl, rfl, rfl, rfl, rfl⟩

/-! ### Nothing else is read -/

/-- The CORE of a state (00_scope R2): the units outside it and `PM_SIZE` are set to fixed values. -/
def State.core (s : State) : State :=
  { s with
    pm := [], romport := 0, dm := [], st := [], dmport := 0, config := { s.config with pmSize := 0 }, testDraws := 0 }

theorem sameCore_iff {u s : State} : u.sameCore s ↔ u.core = s.core := by
  simp [State.core]

section
variable {i : Instr} {u s : State}

/-- What is computed from the CORE alone is the same in two states with the same CORE. -/
theorem eq_of_core {α : Type} (f : State → α) (hf : ∀ s, f s = f s.core) (h : u.core = s.core) : f u = f s := by
  rw [hf u, hf s, h]

/-- An update that takes one value from the units, and everything else from the CORE. -/
theorem core_eq_of_input {β : Type} (f : β → State → State) (hf : ∀ v s, (f v s).core = (f v s.core).core) {v w : β}
    (hv : v = w) (h : u.core = s.core) : (f v u).core = (f w s).core :=
  hv ▸ eq_of_core (fun c => (f v c).core) (hf v) h

theorem fetchAccesses_of_carries (hcore : u.core = s.core) (h : ∀ x ∈ fetchAccesses s, x.carries u = true) :
    fetchAccesses u = fetchAccesses s ∧ fetchedInstr u = fetchedInstr s := by
  have hpc : u.pc = s.pc := eq_of_core State.pc (fun _ => rfl) hcore
  have haddress : operandAddress u = operandAddress s := eq_of_core operandAddress (fun _ => rfl) hcore
  have hfirst : pmFetch s.pc u = pmFetch s.pc s := (beq_iff_eq.1 (h _ List.mem_cons_self)).symm
  unfold fetchAccesses fetchedInstr at *
  rw [hpc, haddress, hfirst]
  cases hw : isTwoWord (pmFetch s.pc s) with
  | false => exact ⟨rfl, by rw [decodeBytes_oneWord _ hw, decodeBytes_oneWord (pmFetch (operandAddress s) s) hw]⟩
  | true =>
    have hsecond : pmFetch (operandAddress s) u = pmFetch (operandAddress s) s :=
      (beq_iff_eq.1 (h (.pmFetch (operandAddress s) _) (by simp [hw]))).symm
    rw [hsecond]
    exact ⟨rfl, rfl⟩

theorem dmRead_of_carries (hcore : u.core = s.core)
    (h : ∀ x ∈ [Access.dmRead s.sel (memRead s.sel.toNat s)], x.carries u = true) :
    [Access.dmRead u.sel (memRead u.sel.toNat u)] = [Access.dmRead s.sel (memRead s.sel.toNat s)] ∧
      memRead u.sel.toNat u = memRead s.sel.toNat s := by
  have hsel : u.sel = s.sel := eq_of_core State.sel (fun _ => rfl) hcore
  have hread : memRead s.sel.toNat u = memRead s.sel.toNat s := (beq_iff_eq.1 (h _ List.mem_cons_self)).symm
  rw [hsel, hread]
  exact ⟨rfl, rfl⟩

theorem statusRead_of_carries {n : Nat} (hn : n < 4) (hcore : u.core = s.core)
    (h : ∀ x ∈ statusReadAccess n s, x.carries u = true) :
    statusReadAccess n u = statusReadAccess n s ∧ statRead (statIndex n u) u = statRead (statIndex n s) s := by
  have hindex : statIndex n u = statIndex n s := eq_of_core (statIndex n) (fun _ => rfl) hcore
  have hread : statRead (statIndex n s) u = statRead (statIndex n s) s :=
    ((stRead_carries_iff hn s u _).1 (h _ List.mem_cons_self)).symm
  unfold statusReadAccess
  rw [hindex, hread]
  exact ⟨rfl, rfl⟩

/-- JCN's decision is the same where the draw is the same, or is not made. -/
theorem jcn_of_carries {c : Nibble} {a : Byte} (h : ∀ x ∈ instrAccesses (.jcn c a) s, x.carries u = true) :
    instrAccesses (.jcn c a) u = instrAccesses (.jcn c a) s ∧
      jcnTaken c (testValue u) u = jcnTaken c (testValue s) u := by
  rw [instrAccesses_jcn] at h ⊢
  rw [instrAccesses_jcn]
  cases hc : jcnSamplesTest c with
  | false => exact ⟨rfl, jcnTaken_of_not_samples u hc _ _⟩
  | true =>
    have hread : testValue u = testValue s := (beq_iff_eq.1 (h (.testSample (testValue s)) (by simp [hc]))).symm
    rw [hread]
    exact ⟨rfl, rfl⟩

/-- The transactions and the CORE after the instruction come from the CORE before it and the one value it may read. -/
theorem instrAccesses_of_carries (hcore : u.core = s.core) (h : ∀ x ∈ instrAccesses i s, x.carries u = true) :
    instrAccesses i u = instrAccesses i s ∧ (execNext i u).core = (execNext i s).core := by
  cases i with
  | fin p =>
    have haddress : finAddress u = finAddress s := eq_of_core finAddress (fun _ => rfl) hcore
    have hread : pmFetch (finAddress s) u = pmFetch (finAddress s) s := (beq_iff_eq.1 (h _ List.mem_cons_self)).symm
    refine ⟨by simp only [instrAccesses, haddress, hread], ?_⟩
    exact core_eq_of_input (fun b c => advance 1 (setReg (evenSlot p) (lowNibble b) c)) (fun _ _ => rfl)
      ((congrArg (pmFetch · u) haddress).trans hread) hcore
  | jcn c a =>
    obtain ⟨haccesses, htaken⟩ := jcn_of_carries h
    refine ⟨haccesses, ?_⟩
    show (u.setPc (if jcnTaken c (testValue u) u then shortTarget a u else u.pc + 2)).core = _
    rw [htaken]
    exact core_eq_of_input (fun test c' => c'.setPc (if jcnTaken c test c' then shortTarget a c' else c'.pc + 2))
      (fun _ _ => rfl) rfl hcore
  | rdm =>
    obtain ⟨haccesses, hread⟩ := dmRead_of_carries hcore h
    exact ⟨haccesses, core_eq_of_input (fun m c => advance 1 (c.setAcc m)) (fun _ _ => rfl) hread hcore⟩
  | adm =>
    obtain ⟨haccesses, hread⟩ := dmRead_of_carries hcore h
    exact ⟨haccesses, core_eq_of_input (fun m c => advance 1 (aluWrite (addSum m c) c)) (fun _ _ => rfl) hread hcore⟩
  | sbm =>
    obtain ⟨haccesses, hread⟩ := dmRead_of_carries hcore h
    exact ⟨haccesses, core_eq_of_input (fun m c => advance 1 (aluWrite (subDiff m c) c)) (fun _ _ => rfl) hread hcore⟩
  | rd0 | rd1 | rd2 | rd3 =>
    obtain ⟨haccesses, hread⟩ := statusRead_of_carries (by decide) hcore h
    exact ⟨haccesses, core_eq_of_input (fun m c => advance 1 (c.setAcc m)) (fun _ _ => rfl) hread hcore⟩
  | rdr =>
    have hread : u.romport = s.romport := (beq_iff_eq.1 (h _ List.mem_cons_self)).symm
    exact ⟨congrArg (fun v => [Access.romportRead v]) hread,
      core_eq_of_input (fun m c => advance 1 (c.setAcc m)) (fun _ _ => rfl) hread hcore⟩
  | _ =>
    exact ⟨eq_of_core (instrAccesses _) (fun _ => rfl) hcore,
      eq_of_core (fun c => (execNext _ c).core) (fun _ => rfl) hcore⟩

end

/-- Settles O59: the reads by `fetchAccesses_carry` and `instrAccesses_carry`, the writes by `sameUnits_instrAccesses`;
with the same reads and CORE a step fetches the same instruction, which leaves the same CORE. -/
theorem transactionsAccountForMemory : Obligations.TransactionsAccountForMemory := by
  refine fun s => ⟨fun x hx => ?_, _, step_eq_next s, ?_, fun u hcore h => ?_⟩
  · exact (List.mem_append.1 hx).elim (fetchAccesses_carry s x) (instrAccesses_carry _ s x)
  · rw [stepAccesses, List.foldl_append, foldl_fetchAccesses]
    exact sameUnits_instrAccesses (fetchedInstr s) s
  · rw [sameCore_iff] at hcore
    obtain ⟨hfetch, hinstr⟩ := fetchAccesses_of_carries hcore fun x hx => h x (List.mem_append_left _ hx)
    obtain ⟨haccesses, hnext⟩ := instrAccesses_of_carries hcore fun x hx => h x (List.mem_append_right _ hx)
    refine ⟨?_, _, step_eq_next u, sameCore_iff.2 ?_⟩
    · rw [stepAccesses, hfetch, hinstr, haccesses, stepAccesses]
    · rw [hinstr, hnext]

end Sys2Proof.Machine
end

section
/-! PROOF. Assembler lines (30_encoding R104): the operands of an instruction are in the ranges of its line, and there
they are kept by their fields. -/

namespace Sys2Proof.Machine

/-! ### Operand ranges -/

@[simp] theorem pair_lt (p : BitVec 3) : p.toNat < 8 := p.isLt
@[simp] theorem nibble_lt (v : Nibble) : v.toNat < 16 := v.isLt
@[simp] theorem byte_lt (b : Byte) : b.toNat < 256 := b.isLt
@[simp] theorem addr_lt (a : Addr) : a.toNat < 4096 := a.isLt

/-! ### Lines without operands -/

theorem sourceLine_of_takesNoOperand {i : Instr} (h : i.takesNoOperand = true) : sourceLine i = some (.plain i) := by
  cases i with
  | nop f => exact if_pos (beq_iff_eq.1 h)
  | jcn | fim | src | fin | jin | jun | jms | inc | isz | add | sub | ld | xch | bbl | ldm | unassigned => nomatch h
  | _ => rfl

theorem assembleLine_plain {i : Instr} (h : i.takesNoOperand = true) : assembleLine (.plain i) = some i := if_pos h

/-! ### From an instruction to its line and back -/

theorem assembleLine_sourceLine {i : Instr} {l : SourceLine} (h : sourceLine i = some l) : assembleLine l = some i := by
  cases i with
  | nop f =>
    simp only [sourceLine, Option.ite_none_right_eq_some, Option.some.injEq] at h
    obtain ⟨rfl, rfl⟩ := h
    rfl
  | unassigned f => cases h
  | jcn | fim | src | fin | jin | jun | jms | inc | isz | add | sub | ld | xch | bbl | ldm =>
    cases h
    simp [assembleLine, SourceLine.wellFormed]
  | _ =>
    cases h
    rfl

theorem sourceLine_assembleLine {i : Instr} {l : SourceLine} (h : assembleLine l = some i) : sourceLine i = some l := by
  have hl : l.wellFormed = true := by
    by_contra hl
    simp [assembleLine, hl] at h
  cases l with
  | plain j =>
    cases (assembleLine_plain hl).symm.trans h
    exact sourceLine_of_takesNoOperand hl
  | _ =>
    cases (if_pos hl).symm.trans h
    simp only [SourceLine.wellFormed, Bool.and_eq_true, decide_eq_true_eq] at hl
    simp [sourceLine, hl, Nat.mod_eq_of_lt]

/-- Settles O60: a line in range and its instruction determine each other, and any other line is refused at once. -/
theorem assemblyRoundTrip : Obligations.AssemblyRoundTrip :=
  ⟨fun _ _ => ⟨sourceLine_assembleLine, assembleLine_sourceLine⟩, fun l h => by simp [assembleLine, h]⟩

end Sys2Proof.Machine
end
